-- ==== Sys2Proof/Word.lean ====
section
/-! DEFINITION. The two word types of the machine: every register and memory value is an unsigned
`Byte` or an unsigned `Word`, with arithmetic modulo 256 and modulo 65536 (00_scope R1, R2). -/

namespace Sys2Proof

/-- An unsigned 8-bit value (00_scope R1). -/
abbrev Byte := BitVec 8

/-- An unsigned 16-bit value, and an address (00_scope R1, 20_memory R65). -/
abbrev Word := BitVec 16

end Sys2Proof
end

