-- ==== Sys2Proof/Machine/Bits.lean ====
section
/-! DEFINITION. Bit fields and byte order: the halves of a word, the word of two bytes, the fields
of an opcode byte (00_scope section 5, 10_state R22, 30_encoding R92). -/

namespace Sys2Proof

/-- `w[7:0]`. -/
def loByte (w : Word) : Byte := w.extractLsb' 0 8

/-- `w[15:8]`. -/
def hiByte (w : Word) : Byte := w.extractLsb' 8 8

/-- `(hi << 8) | lo` (10_state R22, 30_encoding R100). -/
def wordOf (hi lo : Byte) : Word := hi ++ lo

/-- The byte with the one bit `k` set to `v` and every other bit 0: `v << k`. -/
def bitAt (v : Bool) (k : Nat) : Byte := (BitVec.ofBool v).setWidth 8 <<< k

/-- Field group, bits 7:6 of the opcode byte (30_encoding R92). -/
def groupField (op : Byte) : BitVec 2 := op.extractLsb' 6 2

/-- Fields ddd, ooo, ccc and nnn, bits 5:3 of the opcode byte (30_encoding R92). -/
def dddField (op : Byte) : BitVec 3 := op.extractLsb' 3 3

/-- Field sss, bits 2:0 of the opcode byte (30_encoding R92). -/
def sssField (op : Byte) : BitVec 3 := op.extractLsb' 0 3

/-- Field rp, bits 5:4 of the opcode byte (30_encoding R92). -/
def rpField (op : Byte) : BitVec 2 := op.extractLsb' 4 2

end Sys2Proof
end

