-- ==== Sys2Proof/Syntax.lean ====
section
/-! DEFINITION. The instructions: one constructor per instruction rule of 40_data_transfer to
45_io_control (the forms of MOV, MVI, INR, DCR, PUSH and POP that have rules of their own are
constructors of their own), one per conditional mnemonic, and one per kind of undocumented opcode
byte (30_encoding R104, R105). -/

namespace Sys2Proof

/-- The seven byte registers (10_state R21). -/
inductive Reg where
  | b | c | d | e | h | l | a
  deriving DecidableEq, Repr

/-- What a 3-bit register selector names: a byte register, or `m`, the memory byte at address HL
(30_encoding R95, R102). -/
inductive Operand where
  | reg (r : Reg)
  | m
  deriving DecidableEq, Repr

/-- The register pairs of LXI, DAD, INX and DCX (30_encoding R96). -/
inductive Pair where
  | bc | de | hl | sp
  deriving DecidableEq, Repr

/-- The register pairs of PUSH and POP other than PSW (44_stack R253, R255). -/
inductive StackPair where
  | bc | de | hl
  deriving DecidableEq, Repr

/-- The register pairs of STAX and LDAX (40_data_transfer R136, R137). -/
inductive IndexPair where
  | bc | de
  deriving DecidableEq, Repr

/-- The eight flag predicates of the conditional instructions (30_encoding R97). -/
inductive Cond where
  | nz | z | nc | c | po | pe | p | m
  deriving DecidableEq, Repr

/-- The instructions of the machine. -/
inductive Instr where
  -- data transfer (40_data_transfer)
  | movRR (dst src : Reg)
  | movRM (dst : Reg)
  | movMR (src : Reg)
  | mviR (dst : Reg) (v : Byte)
  | mviM (v : Byte)
  | lxi (p : Pair) (w : Word)
  | stax (p : IndexPair)
  | ldax (p : IndexPair)
  | sta (addr : Word)
  | lda (addr : Word)
  | shld (addr : Word)
  | lhld (addr : Word)
  | xchg
  | xthl
  | sphl
  -- arithmetic (41_arithmetic)
  | add (o : Operand)
  | adi (v : Byte)
  | adc (o : Operand)
  | aci (v : Byte)
  | sub (o : Operand)
  | sui (v : Byte)
  | sbb (o : Operand)
  | sbi (v : Byte)
  | cmp (o : Operand)
  | cpi (v : Byte)
  | inrR (r : Reg)
  | inrM
  | dcrR (r : Reg)
  | dcrM
  | inx (p : Pair)
  | dcx (p : Pair)
  | dad (p : Pair)
  | daa
  -- logical, rotate and carry (42_logical)
  | ana (o : Operand)
  | ani (v : Byte)
  | xra (o : Operand)
  | xri (v : Byte)
  | ora (o : Operand)
  | ori (v : Byte)
  | rlc
  | rrc
  | ral
  | rar
  | cma
  | stc
  | cmc
  -- branch (43_branch)
  | jmp (addr : Word)
  | jnz (addr : Word)
  | jz (addr : Word)
  | jnc (addr : Word)
  | jc (addr : Word)
  | jpo (addr : Word)
  | jpe (addr : Word)
  | jp (addr : Word)
  | jm (addr : Word)
  | call (addr : Word)
  | cnz (addr : Word)
  | cz (addr : Word)
  | cnc (addr : Word)
  | cc (addr : Word)
  | cpo (addr : Word)
  | cpe (addr : Word)
  | cp (addr : Word)
  | cm (addr : Word)
  | ret
  | rnz
  | rz
  | rnc
  | rc
  | rpo
  | rpe
  | rp
  | rm
  | rst (n : BitVec 3)
  | pchl
  -- stack (44_stack)
  | push (p : StackPair)
  | pushPsw
  | pop (p : StackPair)
  | popPsw
  -- input, output and control (45_io_control)
  | inp (port : Byte)
  | outp (port : Byte)
  | ei
  | di
  | hlt
  | nop
  -- the 12 undocumented bytes (30_encoding R105)
  | undocNop (n : BitVec 3)
  | undocJmp (addr : Word)
  | undocRet
  | undocCall (n : BitVec 2) (addr : Word)
  deriving DecidableEq, Repr

end Sys2Proof
end

