-- ==== Sys2Proof/WellFormed.lean ====
section
/-! DEFINITION. Well-formedness of an instruction. Every value of every operand field is legal
(30_encoding R95, R106), so the only checks are on the two selectors that tell the undocumented
bytes apart: value 0 of each is a documented byte (00 = NOP, CD = CALL), not a duplicate
(30_encoding R105). -/

namespace Sys2Proof

/-- The instruction is one the opcode map has: its bytes are one row of 30_encoding R104 or R105. -/
def Instr.wf : Instr → Bool
  | .movRR _ _ => true
  | .movRM _ => true
  | .movMR _ => true
  | .mviR _ _ => true
  | .mviM _ => true
  | .lxi _ _ => true
  | .stax _ => true
  | .ldax _ => true
  | .sta _ => true
  | .lda _ => true
  | .shld _ => true
  | .lhld _ => true
  | .xchg => true
  | .xthl => true
  | .sphl => true
  | .add _ => true
  | .adi _ => true
  | .adc _ => true
  | .aci _ => true
  | .sub _ => true
  | .sui _ => true
  | .sbb _ => true
  | .sbi _ => true
  | .cmp _ => true
  | .cpi _ => true
  | .inrR _ => true
  | .inrM => true
  | .dcrR _ => true
  | .dcrM => true
  | .inx _ => true
  | .dcx _ => true
  | .dad _ => true
  | .daa => true
  | .ana _ => true
  | .ani _ => true
  | .xra _ => true
  | .xri _ => true
  | .ora _ => true
  | .ori _ => true
  | .rlc => true
  | .rrc => true
  | .ral => true
  | .rar => true
  | .cma => true
  | .stc => true
  | .cmc => true
  | .jmp _ => true
  | .jnz _ => true
  | .jz _ => true
  | .jnc _ => true
  | .jc _ => true
  | .jpo _ => true
  | .jpe _ => true
  | .jp _ => true
  | .jm _ => true
  | .call _ => true
  | .cnz _ => true
  | .cz _ => true
  | .cnc _ => true
  | .cc _ => true
  | .cpo _ => true
  | .cpe _ => true
  | .cp _ => true
  | .cm _ => true
  | .ret => true
  | .rnz => true
  | .rz => true
  | .rnc => true
  | .rc => true
  | .rpo => true
  | .rpe => true
  | .rp => true
  | .rm => true
  | .rst _ => true
  | .pchl => true
  | .push _ => true
  | .pushPsw => true
  | .pop _ => true
  | .popPsw => true
  | .inp _ => true
  | .outp _ => true
  | .ei => true
  | .di => true
  | .hlt => true
  | .nop => true
  | .undocNop n => n != 0
  | .undocJmp _ => true
  | .undocRet => true
  | .undocCall n _ => n != 0

end Sys2Proof
end

