-- ==== Sys2Proof/Decode.lean ====
section
/-! DEFINITION. The decoder, total on any bytes, and the encoder, both written from the selector
tables and the opcode map of 30_encoding (R91, R92, R95 to R98, R103 to R105, R111). Decoding is a
function of the opcode byte only (R90). -/

namespace Sys2Proof

/-! ## Selector codes (30_encoding R95 to R97) -/

/-- The operand a 3-bit register selector names (R95). -/
def Operand.ofCode (c : BitVec 3) : Operand :=
  match c with
  | 0 => .reg .b
  | 1 => .reg .c
  | 2 => .reg .d
  | 3 => .reg .e
  | 4 => .reg .h
  | 5 => .reg .l
  | 6 => .m
  | 7 => .reg .a

/-- The pair a 2-bit selector names in LXI, DAD, INX and DCX (R96). -/
def Pair.ofCode (c : BitVec 2) : Pair :=
  match c with
  | 0 => .bc
  | 1 => .de
  | 2 => .hl
  | 3 => .sp

/-- The 3-bit code of a register (R95). -/
def Reg.code : Reg → BitVec 3
  | .b => 0
  | .c => 1
  | .d => 2
  | .e => 3
  | .h => 4
  | .l => 5
  | .a => 7

/-- The 3-bit code of an operand: code 6 is M (R95). -/
def Operand.code : Operand → BitVec 3
  | .reg r => r.code
  | .m => 6

/-- The 2-bit code of a pair (R96). -/
def Pair.code : Pair → BitVec 2
  | .bc => 0
  | .de => 1
  | .hl => 2
  | .sp => 3

/-- The 2-bit code of a pair in PUSH and POP; code 3 there is PSW (R96). -/
def StackPair.code : StackPair → BitVec 2
  | .bc => 0
  | .de => 1
  | .hl => 2

/-- The one-bit field p of STAX and LDAX (R92). -/
def IndexPair.code : IndexPair → BitVec 1
  | .bc => 0
  | .de => 1

/-- The 3-bit code of a condition (R97). -/
def Cond.code : Cond → BitVec 3
  | .nz => 0
  | .z => 1
  | .nc => 2
  | .c => 3
  | .po => 4
  | .pe => 5
  | .p => 6
  | .m => 7

/-! ## The decoder -/

/-- One entry of the opcode map: the format of the instruction (R91) and the instruction as a
function of its operand: none, one byte, or the little-endian word of two bytes. -/
inductive Row where
  | f1 (i : Instr)
  | f2 (i : Byte → Instr)
  | f3 (i : Word → Instr)

/-- The length in bytes a row gives (R91, R103). -/
def Row.length : Row → Nat
  | .f1 _ => 1
  | .f2 _ => 2
  | .f3 _ => 3

/-- Group 00 (R104): miscellaneous, immediate loads, 16-bit and rotate group. `y` is bits 5:3, `z`
bits 2:0, and where bit 3 splits a column the pair selector is bits 5:4. -/
def decodeGroup0 (op : Byte) : Row :=
  match sssField op with
  | 0 => if dddField op = 0 then .f1 .nop else .f1 (.undocNop (dddField op))
  | 1 => if op.getLsbD 3 then .f1 (.dad (Pair.ofCode (rpField op)))
         else .f3 (.lxi (Pair.ofCode (rpField op)))
  | 2 =>
    match dddField op with
    | 0 => .f1 (.stax .bc)
    | 1 => .f1 (.ldax .bc)
    | 2 => .f1 (.stax .de)
    | 3 => .f1 (.ldax .de)
    | 4 => .f3 .shld
    | 5 => .f3 .lhld
    | 6 => .f3 .sta
    | 7 => .f3 .lda
  | 3 => if op.getLsbD 3 then .f1 (.dcx (Pair.ofCode (rpField op)))
         else .f1 (.inx (Pair.ofCode (rpField op)))
  | 4 =>
    match Operand.ofCode (dddField op) with
    | .reg r => .f1 (.inrR r)
    | .m => .f1 .inrM
  | 5 =>
    match Operand.ofCode (dddField op) with
    | .reg r => .f1 (.dcrR r)
    | .m => .f1 .dcrM
  | 6 =>
    match Operand.ofCode (dddField op) with
    | .reg r => .f2 (.mviR r)
    | .m => .f2 .mviM
  | 7 =>
    match dddField op with
    | 0 => .f1 .rlc
    | 1 => .f1 .rrc
    | 2 => .f1 .ral
    | 3 => .f1 .rar
    | 4 => .f1 .daa
    | 5 => .f1 .cma
    | 6 => .f1 .stc
    | 7 => .f1 .cmc

/-- Group 01 (R104): MOV, and HLT where both selectors are 6. -/
def decodeGroup1 (op : Byte) : Row :=
  match Operand.ofCode (dddField op), Operand.ofCode (sssField op) with
  | .reg dst, .reg src => .f1 (.movRR dst src)
  | .reg dst, .m => .f1 (.movRM dst)
  | .m, .reg src => .f1 (.movMR src)
  | .m, .m => .f1 .hlt

/-- Group 10 (R98, R104): the ALU operations with a register or M. -/
def decodeGroup2 (op : Byte) : Row :=
  match dddField op with
  | 0 => .f1 (.add (Operand.ofCode (sssField op)))
  | 1 => .f1 (.adc (Operand.ofCode (sssField op)))
  | 2 => .f1 (.sub (Operand.ofCode (sssField op)))
  | 3 => .f1 (.sbb (Operand.ofCode (sssField op)))
  | 4 => .f1 (.ana (Operand.ofCode (sssField op)))
  | 5 => .f1 (.xra (Operand.ofCode (sssField op)))
  | 6 => .f1 (.ora (Operand.ofCode (sssField op)))
  | 7 => .f1 (.cmp (Operand.ofCode (sssField op)))

/-- Group 11 (R97, R98, R104): branch, stack, ALU-immediate, input, output and control. -/
def decodeGroup3 (op : Byte) : Row :=
  match sssField op with
  | 0 =>
    match dddField op with
    | 0 => .f1 .rnz
    | 1 => .f1 .rz
    | 2 => .f1 .rnc
    | 3 => .f1 .rc
    | 4 => .f1 .rpo
    | 5 => .f1 .rpe
    | 6 => .f1 .rp
    | 7 => .f1 .rm
  | 1 =>
    match dddField op with
    | 0 => .f1 (.pop .bc)
    | 1 => .f1 .ret
    | 2 => .f1 (.pop .de)
    | 3 => .f1 .undocRet
    | 4 => .f1 (.pop .hl)
    | 5 => .f1 .pchl
    | 6 => .f1 .popPsw
    | 7 => .f1 .sphl
  | 2 =>
    match dddField op with
    | 0 => .f3 .jnz
    | 1 => .f3 .jz
    | 2 => .f3 .jnc
    | 3 => .f3 .jc
    | 4 => .f3 .jpo
    | 5 => .f3 .jpe
    | 6 => .f3 .jp
    | 7 => .f3 .jm
  | 3 =>
    match dddField op with
    | 0 => .f3 .jmp
    | 1 => .f3 .undocJmp
    | 2 => .f2 .outp
    | 3 => .f2 .inp
    | 4 => .f1 .xthl
    | 5 => .f1 .xchg
    | 6 => .f1 .di
    | 7 => .f1 .ei
  | 4 =>
    match dddField op with
    | 0 => .f3 .cnz
    | 1 => .f3 .cz
    | 2 => .f3 .cnc
    | 3 => .f3 .cc
    | 4 => .f3 .cpo
    | 5 => .f3 .cpe
    | 6 => .f3 .cp
    | 7 => .f3 .cm
  | 5 =>
    match dddField op with
    | 0 => .f1 (.push .bc)
    | 1 => .f3 .call
    | 2 => .f1 (.push .de)
    | 3 => .f3 (.undocCall 1)
    | 4 => .f1 (.push .hl)
    | 5 => .f3 (.undocCall 2)
    | 6 => .f1 .pushPsw
    | 7 => .f3 (.undocCall 3)
  | 6 =>
    match dddField op with
    | 0 => .f2 .adi
    | 1 => .f2 .aci
    | 2 => .f2 .sui
    | 3 => .f2 .sbi
    | 4 => .f2 .ani
    | 5 => .f2 .xri
    | 6 => .f2 .ori
    | 7 => .f2 .cpi
  | 7 => .f1 (.rst (dddField op))

/-- The opcode map (R104, R105, R111): every opcode byte has a row, so there is no fall-through
arm and UnreachableCondition cannot arise (60_exceptions R303). -/
def decodeOpcode (op : Byte) : Row :=
  match groupField op with
  | 0 => decodeGroup0 op
  | 1 => decodeGroup1 op
  | 2 => decodeGroup2 op
  | 3 => decodeGroup3 op

/-- Why a byte sequence holds no instruction: it ends before the instruction does. Every sequence
of three bytes holds one. -/
inductive DecodeError where
  | empty
  | truncated (opcode : Byte)
  deriving DecidableEq, Repr

/-- The instruction at the front of a byte sequence and the bytes after it (R91, R111). -/
def decode : List Byte → Except DecodeError (Instr × List Byte)
  | [] => .error .empty
  | op :: rest =>
    match decodeOpcode op, rest with
    | .f1 i, rest => .ok (i, rest)
    | .f2 i, v :: rest => .ok (i v, rest)
    | .f3 i, lo :: hi :: rest => .ok (i (wordOf hi lo), rest)
    | .f2 _, [] => .error (.truncated op)
    | .f3 _, [] => .error (.truncated op)
    | .f3 _, [_] => .error (.truncated op)

/-! ## The encoder -/

/-- The opcode byte of an instruction, written bit 7 first as the patterns of R104 and R105 write it. -/
def Instr.opcode : Instr → Byte
  | .movRR dst src => 0b01#2 ++ dst.code ++ src.code
  | .movRM dst => 0b01#2 ++ dst.code ++ 0b110#3
  | .movMR src => 0b01110#5 ++ src.code
  | .mviR dst _ => 0b00#2 ++ dst.code ++ 0b110#3
  | .mviM _ => 0b00110110
  | .lxi p _ => 0b00#2 ++ p.code ++ 0b0001#4
  | .stax p => 0b000#3 ++ p.code ++ 0b0010#4
  | .ldax p => 0b000#3 ++ p.code ++ 0b1010#4
  | .sta _ => 0b00110010
  | .lda _ => 0b00111010
  | .shld _ => 0b00100010
  | .lhld _ => 0b00101010
  | .xchg => 0b11101011
  | .xthl => 0b11100011
  | .sphl => 0b11111001
  | .add o => 0b10000#5 ++ o.code
  | .adi _ => 0b11000110
  | .adc o => 0b10001#5 ++ o.code
  | .aci _ => 0b11001110
  | .sub o => 0b10010#5 ++ o.code
  | .sui _ => 0b11010110
  | .sbb o => 0b10011#5 ++ o.code
  | .sbi _ => 0b11011110
  | .cmp o => 0b10111#5 ++ o.code
  | .cpi _ => 0b11111110
  | .inrR r => 0b00#2 ++ r.code ++ 0b100#3
  | .inrM => 0b00110100
  | .dcrR r => 0b00#2 ++ r.code ++ 0b101#3
  | .dcrM => 0b00110101
  | .inx p => 0b00#2 ++ p.code ++ 0b0011#4
  | .dcx p => 0b00#2 ++ p.code ++ 0b1011#4
  | .dad p => 0b00#2 ++ p.code ++ 0b1001#4
  | .daa => 0b00100111
  | .ana o => 0b10100#5 ++ o.code
  | .ani _ => 0b11100110
  | .xra o => 0b10101#5 ++ o.code
  | .xri _ => 0b11101110
  | .ora o => 0b10110#5 ++ o.code
  | .ori _ => 0b11110110
  | .rlc => 0b00000111
  | .rrc => 0b00001111
  | .ral => 0b00010111
  | .rar => 0b00011111
  | .cma => 0b00101111
  | .stc => 0b00110111
  | .cmc => 0b00111111
  | .jmp _ => 0b11000011
  | .jnz _ => 0b11#2 ++ Cond.nz.code ++ 0b010#3
  | .jz _ => 0b11#2 ++ Cond.z.code ++ 0b010#3
  | .jnc _ => 0b11#2 ++ Cond.nc.code ++ 0b010#3
  | .jc _ => 0b11#2 ++ Cond.c.code ++ 0b010#3
  | .jpo _ => 0b11#2 ++ Cond.po.code ++ 0b010#3
  | .jpe _ => 0b11#2 ++ Cond.pe.code ++ 0b010#3
  | .jp _ => 0b11#2 ++ Cond.p.code ++ 0b010#3
  | .jm _ => 0b11#2 ++ Cond.m.code ++ 0b010#3
  | .call _ => 0b11001101
  | .cnz _ => 0b11#2 ++ Cond.nz.code ++ 0b100#3
  | .cz _ => 0b11#2 ++ Cond.z.code ++ 0b100#3
  | .cnc _ => 0b11#2 ++ Cond.nc.code ++ 0b100#3
  | .cc _ => 0b11#2 ++ Cond.c.code ++ 0b100#3
  | .cpo _ => 0b11#2 ++ Cond.po.code ++ 0b100#3
  | .cpe _ => 0b11#2 ++ Cond.pe.code ++ 0b100#3
  | .cp _ => 0b11#2 ++ Cond.p.code ++ 0b100#3
  | .cm _ => 0b11#2 ++ Cond.m.code ++ 0b100#3
  | .ret => 0b11001001
  | .rnz => 0b11#2 ++ Cond.nz.code ++ 0b000#3
  | .rz => 0b11#2 ++ Cond.z.code ++ 0b000#3
  | .rnc => 0b11#2 ++ Cond.nc.code ++ 0b000#3
  | .rc => 0b11#2 ++ Cond.c.code ++ 0b000#3
  | .rpo => 0b11#2 ++ Cond.po.code ++ 0b000#3
  | .rpe => 0b11#2 ++ Cond.pe.code ++ 0b000#3
  | .rp => 0b11#2 ++ Cond.p.code ++ 0b000#3
  | .rm => 0b11#2 ++ Cond.m.code ++ 0b000#3
  | .rst n => 0b11#2 ++ n ++ 0b111#3
  | .pchl => 0b11101001
  | .push p => 0b11#2 ++ p.code ++ 0b0101#4
  | .pushPsw => 0b11110101
  | .pop p => 0b11#2 ++ p.code ++ 0b0001#4
  | .popPsw => 0b11110001
  | .inp _ => 0b11011011
  | .outp _ => 0b11010011
  | .ei => 0b11111011
  | .di => 0b11110011
  | .hlt => 0b01110110
  | .nop => 0b00000000
  | .undocNop n => 0b00#2 ++ n ++ 0b000#3
  | .undocJmp _ => 0b11001011
  | .undocRet => 0b11011001
  | .undocCall n _ => 0b11#2 ++ n ++ 0b1101#4

/-- The operand bytes of an instruction: an 8-bit operand, or a 16-bit operand low byte first (R91). -/
def Instr.operands : Instr → List Byte
  | .movRR _ _ => []
  | .movRM _ => []
  | .movMR _ => []
  | .mviR _ v => [v]
  | .mviM v => [v]
  | .lxi _ w => [loByte w, hiByte w]
  | .stax _ => []
  | .ldax _ => []
  | .sta addr => [loByte addr, hiByte addr]
  | .lda addr => [loByte addr, hiByte addr]
  | .shld addr => [loByte addr, hiByte addr]
  | .lhld addr => [loByte addr, hiByte addr]
  | .xchg => []
  | .xthl => []
  | .sphl => []
  | .add _ => []
  | .adi v => [v]
  | .adc _ => []
  | .aci v => [v]
  | .sub _ => []
  | .sui v => [v]
  | .sbb _ => []
  | .sbi v => [v]
  | .cmp _ => []
  | .cpi v => [v]
  | .inrR _ => []
  | .inrM => []
  | .dcrR _ => []
  | .dcrM => []
  | .inx _ => []
  | .dcx _ => []
  | .dad _ => []
  | .daa => []
  | .ana _ => []
  | .ani v => [v]
  | .xra _ => []
  | .xri v => [v]
  | .ora _ => []
  | .ori v => [v]
  | .rlc => []
  | .rrc => []
  | .ral => []
  | .rar => []
  | .cma => []
  | .stc => []
  | .cmc => []
  | .jmp addr => [loByte addr, hiByte addr]
  | .jnz addr => [loByte addr, hiByte addr]
  | .jz addr => [loByte addr, hiByte addr]
  | .jnc addr => [loByte addr, hiByte addr]
  | .jc addr => [loByte addr, hiByte addr]
  | .jpo addr => [loByte addr, hiByte addr]
  | .jpe addr => [loByte addr, hiByte addr]
  | .jp addr => [loByte addr, hiByte addr]
  | .jm addr => [loByte addr, hiByte addr]
  | .call addr => [loByte addr, hiByte addr]
  | .cnz addr => [loByte addr, hiByte addr]
  | .cz addr => [loByte addr, hiByte addr]
  | .cnc addr => [loByte addr, hiByte addr]
  | .cc addr => [loByte addr, hiByte addr]
  | .cpo addr => [loByte addr, hiByte addr]
  | .cpe addr => [loByte addr, hiByte addr]
  | .cp addr => [loByte addr, hiByte addr]
  | .cm addr => [loByte addr, hiByte addr]
  | .ret => []
  | .rnz => []
  | .rz => []
  | .rnc => []
  | .rc => []
  | .rpo => []
  | .rpe => []
  | .rp => []
  | .rm => []
  | .rst _ => []
  | .pchl => []
  | .push _ => []
  | .pushPsw => []
  | .pop _ => []
  | .popPsw => []
  | .inp port => [port]
  | .outp port => [port]
  | .ei => []
  | .di => []
  | .hlt => []
  | .nop => []
  | .undocNop _ => []
  | .undocJmp addr => [loByte addr, hiByte addr]
  | .undocRet => []
  | .undocCall _ addr => [loByte addr, hiByte addr]

/-- The bytes of an instruction: opcode, then operands (R91). -/
def encode (i : Instr) : List Byte := i.opcode :: i.operands

/-- The length of an instruction in bytes (R90, R103). -/
def Instr.length (i : Instr) : Nat := (encode i).length

/-! ## The host's reading of an opcode-table word -/

/-- The three bytes of a table word, the first byte least significant; bits above `nbits` are 0. -/
def tableBytes (nbits w : Nat) : List Byte :=
  [BitVec.ofNat 8 (w % 2 ^ nbits), BitVec.ofNat 8 (w % 2 ^ nbits / 256),
    BitVec.ofNat 8 (w % 2 ^ nbits / 65536)]

/-- The instruction the decoder reads from a table word laid out in memory order. -/
def decodeTableWord (nbits w : Nat) : Option Instr :=
  match decode (tableBytes nbits w) with
  | .ok (i, _) => some i
  | .error _ => none

end Sys2Proof
end

