-- ==== Sys2Proof/Config.lean ====
section
/-! DEFINITION. The parameters the specification leaves open (00_scope section 4, 92_eei_decisions)
and the one free value that has no body. The default values of the parameters stand in
Machine/Defaults.lean. -/

namespace Sys2Proof

/-- Parameter `ACSUB`: what Auxiliary-Carry shows after a subtraction, compare or decrement
(10_state R38, D1). Assumption log 4. -/
inductive AcSub where
  | borrow
  | notBorrow
  deriving DecidableEq, Repr

/-- Parameter `UNDOC`: what the 12 undocumented opcode bytes do (30_encoding R105, D2).
`duplicate` is the spec's value "alias". Assumption log 5. -/
inductive Undoc where
  | fault
  | duplicate
  deriving DecidableEq, Repr

/-- The parameters of one machine. They are fixed for the machine: no instruction and no host
operation writes them. `cyc` is the base cycle table of 70_reset_and_hazards R350, row = high
hexadecimal digit of the opcode byte, column = low digit. Assumption logs 4 to 8 and 11. -/
structure Params where
  acsub      : AcSub
  undoc      : Undoc
  cyc        : Vector (Vector Nat 16) 16
  takenExtra : Nat
  intCost    : Nat
  deriving DecidableEq, Repr

/-- The byte the device answers to a `DevIn` call for which the host has laid no answer ready:
draw number and port number in, an unconstrained byte out (20_memory R71, D17). It has no body, so
no proof can see its values. Assumption log 9. -/
opaque Config.devIn : Nat → Byte → Byte

end Sys2Proof
end

