-- ==== Sys2Proof/Machine/Defaults.lean ====
section
/-! DEFINITION. The default values of the parameters (00_scope section 4): what State.reset runs
with. The cycle numbers are the Intel 8080's state counts, which the spec marks as general
knowledge (70_reset_and_hazards R350, R351). -/

namespace Sys2Proof

/-- The base cycle table `CYC`, row by row (70_reset_and_hazards R350). PRESUMED by the spec;
assumption log 6. -/
def cycDefault : Vector (Vector Nat 16) 16 :=
  #v[#v[4, 10, 7, 5, 5, 5, 7, 4, 4, 10, 7, 5, 5, 5, 7, 4],
     #v[4, 10, 7, 5, 5, 5, 7, 4, 4, 10, 7, 5, 5, 5, 7, 4],
     #v[4, 10, 16, 5, 5, 5, 7, 4, 4, 10, 16, 5, 5, 5, 7, 4],
     #v[4, 10, 13, 5, 10, 10, 10, 4, 4, 10, 13, 5, 5, 5, 7, 4],
     #v[5, 5, 5, 5, 5, 5, 7, 5, 5, 5, 5, 5, 5, 5, 7, 5],
     #v[5, 5, 5, 5, 5, 5, 7, 5, 5, 5, 5, 5, 5, 5, 7, 5],
     #v[5, 5, 5, 5, 5, 5, 7, 5, 5, 5, 5, 5, 5, 5, 7, 5],
     #v[7, 7, 7, 7, 7, 7, 7, 7, 5, 5, 5, 5, 5, 5, 7, 5],
     #v[4, 4, 4, 4, 4, 4, 7, 4, 4, 4, 4, 4, 4, 4, 7, 4],
     #v[4, 4, 4, 4, 4, 4, 7, 4, 4, 4, 4, 4, 4, 4, 7, 4],
     #v[4, 4, 4, 4, 4, 4, 7, 4, 4, 4, 4, 4, 4, 4, 7, 4],
     #v[4, 4, 4, 4, 4, 4, 7, 4, 4, 4, 4, 4, 4, 4, 7, 4],
     #v[5, 10, 10, 10, 11, 11, 7, 11, 5, 10, 10, 10, 11, 17, 7, 11],
     #v[5, 10, 10, 10, 11, 11, 7, 11, 5, 10, 10, 10, 11, 17, 7, 11],
     #v[5, 10, 10, 18, 11, 11, 7, 11, 5, 5, 10, 4, 11, 17, 7, 11],
     #v[5, 10, 10, 4, 11, 11, 7, 11, 5, 5, 10, 4, 11, 17, 7, 11]]

/-- `CYC[op]`: row is the high hexadecimal digit of the byte, column the low one (R350). -/
def Params.cycOf (p : Params) (op : Byte) : Nat :=
  (p.cyc.get (op.extractLsb' 4 4).toFin).get (op.extractLsb' 0 4).toFin

/-- The default of every parameter: `ACSUB` = borrow (D1, log 4), `UNDOC` = fault (D2, log 5),
`CYC` and `TAKEN_EXTRA` the 8080's (D3, logs 6 and 7), `INT_COST` = `CYC[0xCD]` = 17 (D4, log 8). -/
def paramsDefault : Params where
  acsub := .borrow
  undoc := .fault
  cyc := cycDefault
  takenExtra := 6
  intCost := 17

end Sys2Proof
end

