-- ==== Sys2Proof/Machine/State.lean ====
section
/-! DEFINITION. The state of the machine as plain data (10_state R20, 20_memory R60), the ways a
step can stop, and the state after reset (10_state R47, 70_reset_and_hazards R343). -/

namespace Sys2Proof.Machine

/-- The seven byte registers, independent storage (10_state R21). -/
structure Regs where
  a : Byte
  b : Byte
  c : Byte
  d : Byte
  e : Byte
  h : Byte
  l : Byte
  deriving DecidableEq, Repr

/-- The five flags Z, S, P, CY and AC, independent bits (10_state R25). -/
structure Flags where
  z  : Bool
  s  : Bool
  p  : Bool
  cy : Bool
  ac : Bool
  deriving DecidableEq, Repr

/-- One event at the device boundary: a byte read from a port or sent to one (20_memory R71, R72). -/
inductive Event where
  | input (port value : Byte)
  | output (port value : Byte)
  deriving DecidableEq, Repr

/-- The memory: the bytes that are not what an unlisted address reads as, in rising address order.
Its canonical form is Memory.wf of Machine/Ops.lean. -/
abbrev Memory := List Host.Cell

/-- The machine. The first eight fields are the state of 10_state R20 and `mem` the store of
20_memory R60; the last four are the model's own (assumption logs 9, 10 and 11). -/
structure State where
  /-- A, B, C, D, E, H, L. -/
  regs : Regs
  /-- The address of the low byte of the word most recently pushed (10_state R24). -/
  sp : Word
  /-- Between steps, the address of the next instruction (10_state R23). -/
  pc : Word
  /-- Z, S, P, CY, AC. -/
  flags : Flags
  /-- HALTED: set by HLT, cleared by reset only (10_state R28). -/
  halted : Bool
  /-- INTE, the interrupt enable (10_state R29). -/
  inte : Bool
  /-- CYCLES, unbounded (10_state R30, D7). -/
  cycles : Nat
  /-- The 65,536 bytes (20_memory R60). -/
  mem : Memory
  /-- The model's own: what the device boundary saw, oldest first (20_memory R71, R72). -/
  events : List Event
  /-- The model's own: the bytes the device will answer to the next DevIn calls (20_memory R71). -/
  devInputs : List Byte
  /-- The model's own: how many free device values have been drawn (assumption log 9). -/
  devDraws : Nat
  /-- The model's own: the parameters, written by no step and no host operation. -/
  params : Params
  deriving DecidableEq, Repr

/-- The fatal errors (60_exceptions R300). UnreachableCondition has no constructor, because no
byte and no state produces it (R303). -/
inductive Fault where
  /-- UnimplementedInstruction: raised by a step at one of the 12 undocumented opcode bytes while
  `UNDOC` is fault (60_exceptions R301). It carries the raw byte and the state at the error: PC past
  the byte, nothing else changed. Safe: there is no next state. -/
  | unimplementedInstruction (opcode : Byte) (atError : State)
  /-- OutOfRange: raised by the host's Load only, when offset + length exceeds 65,536
  (60_exceptions R302). Safe: there is no next state, and memory is unchanged. -/
  | outOfRange
  deriving DecidableEq, Repr

/-- The ways the model itself declines. -/
inductive Refusal where
  /-- An instruction that has no meaning in this model yet; raised by exec's arms only. Safe. No arm
  raises it: every instruction has its meaning. -/
  | notModelled (mnemonic : String)
  deriving DecidableEq, Repr

/-- What a step or a host operation answers. -/
abbrev Result := Host.Outcome State Fault Refusal

/-- The machine right after reset (10_state R47, 70_reset_and_hazards R343): HALTED, INTE, PC and
CYCLES as the rule gives them; A to L, SP and the flags, which the rule leaves unspecified, at the
deterministic runner's 0 (DESIGN CHOICE, assumption log 2); memory with nothing listed (log 1). -/
def State.reset : State where
  regs := { a := 0, b := 0, c := 0, d := 0, e := 0, h := 0, l := 0 }
  sp := 0
  pc := 0
  flags := { z := false, s := false, p := false, cy := false, ac := false }
  halted := false
  inte := false
  cycles := 0
  mem := []
  events := []
  devInputs := []
  devDraws := 0
  params := paramsDefault

end Sys2Proof.Machine
end

