-- ==== Sys2Proof/Machine/Flags.lean ====
section
/-! DEFINITION. The flag functions and the 8-bit and 16-bit operations that use them (10_state R26,
R27, R31 to R40; 41_arithmetic R177, R178, R182; 42_logical). Each operation converts its operands
to numbers, computes exactly, and narrows at the end; it answers the result and the flags. -/

namespace Sys2Proof.Machine

/-- `parity_even(v)`: the number of 1 bits of the byte is even (10_state R34). -/
def parityEven (v : Byte) : Bool :=
  ((List.range 8).filter (fun k => v.getLsbD k)).length % 2 == 0

/-- `SetZSP(v)`: Z, S and P from the 8-bit result, the other two as they were (10_state R40). -/
def Flags.setZSP (f : Flags) (v : Byte) : Flags :=
  { f with z := v == 0, s := v.getLsbD 7, p := parityEven v }

/-- AC after a subtraction, from the borrow into bit 3, under `ACSUB` (10_state R38). -/
def acOfBorrow (acsub : AcSub) (borrow3 : Bool) : Bool :=
  match acsub with
  | .borrow => borrow3
  | .notBorrow => !borrow3

/-! ## The flags byte -/

/-- The flags byte F: S Z 0 AC 0 P 1 CY from bit 7 down (10_state R26). -/
def Flags.toByte (f : Flags) : Byte :=
  bitAt f.s 7 ||| bitAt f.z 6 ||| bitAt f.ac 4 ||| bitAt f.p 2 ||| 0x02 ||| bitAt f.cy 0

/-- The flags of a byte written to F; bits 5, 3 and 1 are discarded (10_state R27). -/
def Flags.ofByte (v : Byte) : Flags where
  z := v.getLsbD 6
  s := v.getLsbD 7
  p := v.getLsbD 2
  cy := v.getLsbD 0
  ac := v.getLsbD 4

/-- The condition resolver `cond(c)` (43_branch R230). -/
def Flags.cond (f : Flags) : Cond → Bool
  | .nz => !f.z
  | .z => f.z
  | .nc => !f.cy
  | .c => f.cy
  | .po => !f.p
  | .pe => f.p
  | .p => !f.s
  | .m => f.s

/-! ## Arithmetic -/

/-- `Add8(a, b, cin)` (41_arithmetic R177, 10_state R35, R37): all five flags. -/
def add8 (a b : Byte) (cin : Bool) (f : Flags) : Byte × Flags :=
  let t := a.toNat + b.toNat + cin.toNat
  let res := BitVec.ofNat 8 t
  (res, { f.setZSP res with
    ac := decide (a.toNat % 16 + b.toNat % 16 + cin.toNat > 15)
    cy := decide (t > 255) })

/-- `Sub8(a, b, bin)` (41_arithmetic R178, 10_state R36, R38): all five flags; CY is a borrow. -/
def sub8 (acsub : AcSub) (a b : Byte) (bin : Bool) (f : Flags) : Byte × Flags :=
  let res := BitVec.ofInt 8 ((a.toNat : Int) - (b.toNat : Int) - (bin.toNat : Int))
  (res, { f.setZSP res with
    ac := acOfBorrow acsub (decide (a.toNat % 16 < b.toNat % 16 + bin.toNat))
    cy := decide (a.toNat < b.toNat + bin.toNat) })

/-- The increment of INR (41_arithmetic R170): Z, S, P, AC; CY as it was. -/
def inc8 (x : Byte) (f : Flags) : Byte × Flags :=
  let res := BitVec.ofNat 8 (x.toNat + 1)
  (res, { f.setZSP res with ac := decide (x.toNat % 16 + 1 > 15) })

/-- The decrement of DCR (41_arithmetic R172): Z, S, P, AC; CY as it was. -/
def dec8 (acsub : AcSub) (x : Byte) (f : Flags) : Byte × Flags :=
  let res := BitVec.ofInt 8 ((x.toNat : Int) - 1)
  (res, { f.setZSP res with ac := acOfBorrow acsub (decide (x.toNat % 16 < 1)) })

/-- The 16-bit addition of DAD (41_arithmetic R176): CY is the carry out of bit 15, and no other
flag is written. -/
def dad16 (a b : Word) (f : Flags) : Word × Flags :=
  let t := a.toNat + b.toNat
  (BitVec.ofNat 16 t, { f with cy := decide (t > 65535) })

/-- Whether DAA corrects the high nibble (41_arithmetic R182). -/
def daaHigh (a : Byte) (f : Flags) : Bool :=
  let lo := a.toNat % 16
  let hi := a.toNat / 16
  decide (hi > 9) || f.cy || (decide (hi ≥ 9) && decide (lo > 9))

/-- The correction DAA adds: 6 for the low nibble, 0x60 for the high one (41_arithmetic R182). -/
def daaCorrection (a : Byte) (f : Flags) : Nat :=
  (if decide (a.toNat % 16 > 9) || f.ac then 0x06 else 0)
    + (if daaHigh a f then 0x60 else 0)

/-- DAA on the old A and flags (41_arithmetic R182): all five flags. -/
def daa8 (a : Byte) (f : Flags) : Byte × Flags :=
  let corr := daaCorrection a f
  let res := BitVec.ofNat 8 (a.toNat + corr)
  (res, { f.setZSP res with
    ac := decide (a.toNat % 16 + corr % 16 > 15)
    cy := daaHigh a f })

/-! ## Logic -/

/-- AND (42_logical R200): CY cleared, AC the OR of bit 3 of the two operands. -/
def and8 (a v : Byte) (f : Flags) : Byte × Flags :=
  let res := a &&& v
  (res, { f.setZSP res with cy := false, ac := (a ||| v).getLsbD 3 })

/-- Exclusive OR (42_logical R202): CY and AC cleared. -/
def xor8 (a v : Byte) (f : Flags) : Byte × Flags :=
  let res := a ^^^ v
  (res, { f.setZSP res with cy := false, ac := false })

/-- OR (42_logical R204): CY and AC cleared. -/
def or8 (a v : Byte) (f : Flags) : Byte × Flags :=
  let res := a ||| v
  (res, { f.setZSP res with cy := false, ac := false })

/-! ## Rotates: the bit that falls off goes to CY and no other flag is written -/

/-- RLC (42_logical R206): old bit 7 re-enters at bit 0. -/
def rlc8 (a : Byte) (f : Flags) : Byte × Flags :=
  ((a <<< 1) ||| bitAt (a.getLsbD 7) 0, { f with cy := a.getLsbD 7 })

/-- RRC (42_logical R207): old bit 0 re-enters at bit 7. -/
def rrc8 (a : Byte) (f : Flags) : Byte × Flags :=
  ((a >>> 1) ||| bitAt (a.getLsbD 0) 7, { f with cy := a.getLsbD 0 })

/-- RAL (42_logical R208): the previous CY enters at bit 0. -/
def ral8 (a : Byte) (f : Flags) : Byte × Flags :=
  ((a <<< 1) ||| bitAt f.cy 0, { f with cy := a.getLsbD 7 })

/-- RAR (42_logical R209): the previous CY enters at bit 7. -/
def rar8 (a : Byte) (f : Flags) : Byte × Flags :=
  ((a >>> 1) ||| bitAt f.cy 7, { f with cy := a.getLsbD 0 })

end Sys2Proof.Machine
end

