-- ==== Sys2Proof/Machine/Ops.lean ====
section
/-! DEFINITION. The named operations over memory, registers, stack and device boundary, taking an
interrupt and returning from its handler, and the two ways an instruction is carried out
(00_scope section 5, 20_memory, 30_encoding R99, R100, 44_stack R250, R251, 60_exceptions R307). -/

namespace Sys2Proof.Machine

/-! ## Memory -/

/-- What an address that is not listed reads as: 0x00, the spec's deterministic default of
`MEM_INIT`. DESIGN CHOICE, assumption log 1. -/
def Memory.unlisted : Byte := 0x00

/-- Canonical form from address `lo` up: addresses strictly rising from `lo` and below 65536, no
entry equal to what an unlisted address reads as. -/
def Memory.wfFrom : Nat → Memory → Bool
  | _, [] => true
  | lo, (k, v) :: rest =>
    decide (lo ≤ k) && decide (k < 65536) && (v != Memory.unlisted) && Memory.wfFrom (k + 1) rest

/-- The canonical form of a memory: equal memories are equal lists. -/
def Memory.wf (m : Memory) : Bool := Memory.wfFrom 0 m

/-- The byte at an address (20_memory R61). -/
def Memory.read : Memory → Nat → Byte
  | [], _ => Memory.unlisted
  | (k, v) :: rest, a =>
    if a < k then Memory.unlisted else if a = k then v else Memory.read rest a

/-- One byte stored (20_memory R62); the canonical form is kept. -/
def Memory.write : Memory → Nat → Byte → Memory
  | [], a, x => if x = Memory.unlisted then [] else [(a, x)]
  | (k, v) :: rest, a, x =>
    if a < k then
      if x = Memory.unlisted then (k, v) :: rest else (a, x) :: (k, v) :: rest
    else if a = k then
      if x = Memory.unlisted then rest else (a, x) :: rest
    else (k, v) :: Memory.write rest a x

/-- `MemRead(addr, 1)` (20_memory R61). -/
def State.readByte (s : State) (addr : Word) : Byte := Memory.read s.mem addr.toNat

/-- `MemWrite(addr, 1, v)` (20_memory R62). -/
def State.writeByte (s : State) (addr : Word) (v : Byte) : State :=
  { s with mem := Memory.write s.mem addr.toNat v }

/-- `MemRead(addr, 2)`: little-endian, the second address modulo 65536 (20_memory R63, R65). -/
def State.readWord (s : State) (addr : Word) : Word :=
  wordOf (s.readByte (addr + 1)) (s.readByte addr)

/-- `MemWrite(addr, 2, w)`: low byte at `addr`, high byte at `addr + 1` modulo 65536
(20_memory R64, R65). -/
def State.writeWord (s : State) (addr : Word) (w : Word) : State :=
  (s.writeByte addr (loByte w)).writeByte (addr + 1) (hiByte w)

/-- Bytes stored one after the other from an address up, each address modulo 65536. -/
def State.placeBytes (s : State) (addr : Word) : List Byte → State
  | [] => s
  | v :: rest => (s.writeByte addr v).placeBytes (addr + 1) rest

/-! ## Registers -/

/-- The byte in a register (10_state R21). -/
def Regs.get (rs : Regs) : Reg → Byte
  | .a => rs.a
  | .b => rs.b
  | .c => rs.c
  | .d => rs.d
  | .e => rs.e
  | .h => rs.h
  | .l => rs.l

/-- A byte written to a register; no other register changes (10_state R21). -/
def Regs.set (rs : Regs) (r : Reg) (v : Byte) : Regs :=
  match r with
  | .a => { rs with a := v }
  | .b => { rs with b := v }
  | .c => { rs with c := v }
  | .d => { rs with d := v }
  | .e => { rs with e := v }
  | .h => { rs with h := v }
  | .l => { rs with l := v }

/-- The read view of BC, DE or HL (10_state R22). -/
def Regs.pair (rs : Regs) : StackPair → Word
  | .bc => wordOf rs.b rs.c
  | .de => wordOf rs.d rs.e
  | .hl => wordOf rs.h rs.l

/-- A word written to BC, DE or HL: the high byte to the first register, the low byte to the second
(10_state R22). -/
def Regs.setPair (rs : Regs) (p : StackPair) (w : Word) : Regs :=
  match p with
  | .bc => { rs with b := hiByte w, c := loByte w }
  | .de => { rs with d := hiByte w, e := loByte w }
  | .hl => { rs with h := hiByte w, l := loByte w }

/-- `r <- v`. -/
def State.setReg (s : State) (r : Reg) (v : Byte) : State := { s with regs := s.regs.set r v }

/-- `BC <- w`, `DE <- w` or `HL <- w`. -/
def State.setPair (s : State) (p : StackPair) (w : Word) : State :=
  { s with regs := s.regs.setPair p w }

/-- `SP <- w`. -/
def State.setSp (s : State) (w : Word) : State := { s with sp := w }

/-- `PC <- target`. -/
def State.jump (s : State) (target : Word) : State := { s with pc := target }

/-- The five flags written. -/
def State.setFlags (s : State) (f : Flags) : State := { s with flags := f }

/-- `AF`: A in the high byte, F in the low byte (10_state R27). -/
def State.af (s : State) : Word := wordOf s.regs.a s.flags.toByte

/-- `AF <- w`: A and the five flags; the bits 5, 3 and 1 of `w` are discarded (10_state R27). -/
def State.setAf (s : State) (w : Word) : State :=
  { s with regs := s.regs.set .a (hiByte w), flags := Flags.ofByte (loByte w) }

/-- `INTE <- v` (10_state R29). -/
def State.setInte (s : State) (v : Bool) : State := { s with inte := v }

/-- `CYCLES <- n`, by the host only (10_state R30, R46). -/
def State.setCycles (s : State) (n : Nat) : State := { s with cycles := n }

/-- `HALTED <- 1` (10_state R28). -/
def State.halt (s : State) : State := { s with halted := true }

/-! ## Fetch -/

/-- `Fetch8()`: the byte at PC, and PC advanced by 1 modulo 65536 (30_encoding R99). -/
def State.fetch8 (s : State) : Byte × State := (s.readByte s.pc, s.jump (s.pc + 1))

/-- `Fetch16()`: two Fetch8, low byte first (30_encoding R100). -/
def State.fetch16 (s : State) : Word × State :=
  let lo := s.fetch8
  let hi := lo.2.fetch8
  (wordOf hi.1 lo.1, hi.2)

/-- The instruction at PC: the opcode byte, then the operand bytes its row of the opcode map asks
for (30_encoding R99 to R101, R111). -/
def State.fetchInstr (s : State) : Instr :=
  let op := s.fetch8
  match decodeOpcode op.1 with
  | .f1 i => i
  | .f2 i => i op.2.fetch8.1
  | .f3 i => i op.2.fetch16.1

/-- PC past the bytes of an instruction that stands at PC (10_state R23, 30_encoding R101). -/
def State.past (s : State) (i : Instr) : State := s.jump (s.pc + BitVec.ofNat 16 i.length)

/-! ## Stack -/

/-- `Push(w)`: SP decreases by 2 first, then the word is stored at the new SP (44_stack R250). -/
def State.push (s : State) (w : Word) : State := (s.setSp (s.sp - 2)).writeWord (s.sp - 2) w

/-- `Pop()`: the word at the old SP, then SP increases by 2 (44_stack R251). -/
def State.pop (s : State) : Word × State := (s.readWord s.sp, s.setSp (s.sp + 2))

/-! ## Device boundary -/

/-- `DevIn(p)`: one byte from the device, recorded with its port (20_memory R71). The byte is the
next one the host's device has ready, and a free value where none is ready (assumption log 9). -/
def State.devIn (s : State) (p : Byte) : Byte × State :=
  match s.devInputs with
  | v :: rest => (v, { s with devInputs := rest, events := s.events ++ [.input p v] })
  | [] =>
    (Config.devIn s.devDraws p,
      { s with devDraws := s.devDraws + 1,
               events := s.events ++ [.input p (Config.devIn s.devDraws p)] })

/-- `DevOut(p, v)`: the output event, in program order (20_memory R72). -/
def State.devOut (s : State) (p v : Byte) : State :=
  { s with events := s.events ++ [.output p v] }

/-! ## Taking an interrupt, and returning -/

/-- `Interrupt(target)` (60_exceptions R307, R308, R311, R313, R322): if INTE is 1, clear it, push
PC, go to the target and charge `INT_COST`; if INTE is 0, nothing happens and nothing is remembered.
HALTED is neither read nor written. -/
def State.interrupt (s : State) (target : Word) : State :=
  if s.inte then
    { ((s.setInte false).push s.pc).jump target with cycles := s.cycles + s.params.intCost }
  else s

/-- Return, from a subroutine or from an interrupt handler: `PC <- Pop()` (43_branch R235,
60_exceptions R312). INTE is not restored. -/
def State.popPc (s : State) : State := s.pop.2.jump s.pop.1

/-! ## Carrying out an instruction -/

/-- The end of a step: CYC of the opcode byte and the extra cycles are added to CYCLES
(70_reset_and_hazards R340, R349). -/
def State.retire (s : State) (i : Instr) (extra : Nat) : State :=
  { s with cycles := s.cycles + (s.params.cycOf i.opcode + extra) }

/-- An instruction whose operation is `f`, run with PC already past its bytes
(70_reset_and_hazards R340). -/
def execute (i : Instr) (s : State) (f : State → State) : Result :=
  .next ((f (s.past i)).retire i 0)

/-- A conditional CALL or RETURN: where the condition holds, its operation and `TAKEN_EXTRA` cycles;
otherwise PC and CYCLES only (43_branch R234, R236, R241). -/
def executeIf (i : Instr) (k : Cond) (s : State) (f : State → State) : Result :=
  if s.flags.cond k then .next ((f (s.past i)).retire i s.params.takenExtra)
  else .next ((s.past i).retire i 0)

/-- An undocumented opcode byte (30_encoding R105): under `UNDOC` = fault the error of
60_exceptions R301, with PC past the opcode byte and nothing else changed; otherwise what the
instruction it duplicates does. Assumption log 5. -/
def undocumented (i : Instr) (s : State) (duplicate : Result) : Result :=
  match s.params.undoc with
  | .fault => .fault (.unimplementedInstruction i.opcode (s.jump (s.pc + 1)))
  | .duplicate => duplicate

end Sys2Proof.Machine
end

