-- ==== Sys2Proof/Machine/Operands.lean ====
section
/-! DEFINITION. The operand forms (30_encoding R102): reading and writing what a register selector
or a pair selector names, and the addresses that BC, DE and HL give. -/

namespace Sys2Proof.Machine

/-- The register that is the high half of a pair (10_state R22). -/
def pairHigh : StackPair → Reg
  | .bc => .b
  | .de => .d
  | .hl => .h

/-- The register that is the low half of a pair (10_state R22). -/
def pairLow : StackPair → Reg
  | .bc => .c
  | .de => .e
  | .hl => .l

/-- HL, the address of M (30_encoding R95). -/
def State.hl (s : State) : Word := s.regs.pair .hl

/-- `r[i]`: a byte register, or the memory byte at HL (30_encoding R95). -/
def State.operand (s : State) : Operand → Byte
  | .reg r => s.regs.get r
  | .m => s.readByte s.hl

/-- `rp[i]` in LXI, DAD, INX and DCX (30_encoding R96). -/
def State.rp (s : State) : Pair → Word
  | .bc => s.regs.pair .bc
  | .de => s.regs.pair .de
  | .hl => s.regs.pair .hl
  | .sp => s.sp

/-- `rp[i] <- w` in LXI, INX and DCX (30_encoding R96). -/
def State.setRp (s : State) (p : Pair) (w : Word) : State :=
  match p with
  | .bc => s.setPair .bc w
  | .de => s.setPair .de w
  | .hl => s.setPair .hl w
  | .sp => s.setSp w

/-- The address STAX and LDAX use (40_data_transfer R136). -/
def State.indexAddr (s : State) : IndexPair → Word
  | .bc => s.regs.pair .bc
  | .de => s.regs.pair .de

/-- An ALU result: the byte to A, the flags to the flags. -/
def State.writeAlu (s : State) (x : Byte × Flags) : State := (s.setReg .a x.1).setFlags x.2

end Sys2Proof.Machine
end

