-- ==== Sys2Proof/Machine/Arithmetic.lean ====
section
/-! DEFINITION. Arithmetic instructions (41_arithmetic R160 to R182). None raises an error (R179). -/

namespace Sys2Proof.Machine

/-- ADD r and ADD M (R160). -/
def execAdd (o : Operand) (s : State) : Result :=
  execute (.add o) s fun s => s.writeAlu (add8 s.regs.a (s.operand o) false s.flags)

/-- ADI d8 (R161). -/
def execAdi (v : Byte) (s : State) : Result :=
  execute (.adi v) s fun s => s.writeAlu (add8 s.regs.a v false s.flags)

/-- ADC r and ADC M (R162). -/
def execAdc (o : Operand) (s : State) : Result :=
  execute (.adc o) s fun s => s.writeAlu (add8 s.regs.a (s.operand o) s.flags.cy s.flags)

/-- ACI d8 (R163). -/
def execAci (v : Byte) (s : State) : Result :=
  execute (.aci v) s fun s => s.writeAlu (add8 s.regs.a v s.flags.cy s.flags)

/-- SUB r and SUB M (R164). -/
def execSub (o : Operand) (s : State) : Result :=
  execute (.sub o) s fun s =>
    s.writeAlu (sub8 s.params.acsub s.regs.a (s.operand o) false s.flags)

/-- SUI d8 (R165). -/
def execSui (v : Byte) (s : State) : Result :=
  execute (.sui v) s fun s => s.writeAlu (sub8 s.params.acsub s.regs.a v false s.flags)

/-- SBB r and SBB M (R166). -/
def execSbb (o : Operand) (s : State) : Result :=
  execute (.sbb o) s fun s =>
    s.writeAlu (sub8 s.params.acsub s.regs.a (s.operand o) s.flags.cy s.flags)

/-- SBI d8 (R167). -/
def execSbi (v : Byte) (s : State) : Result :=
  execute (.sbi v) s fun s => s.writeAlu (sub8 s.params.acsub s.regs.a v s.flags.cy s.flags)

/-- CMP r and CMP M (R168): flags as SUB, A not written. -/
def execCmp (o : Operand) (s : State) : Result :=
  execute (.cmp o) s fun s =>
    s.setFlags (sub8 s.params.acsub s.regs.a (s.operand o) false s.flags).2

/-- CPI d8 (R169): flags as SUI, A not written. -/
def execCpi (v : Byte) (s : State) : Result :=
  execute (.cpi v) s fun s =>
    s.setFlags (sub8 s.params.acsub s.regs.a v false s.flags).2

/-- INR r (R170): CY is not written. -/
def execInrR (r : Reg) (s : State) : Result :=
  execute (.inrR r) s fun s =>
    (s.setReg r (inc8 (s.regs.get r) s.flags).1).setFlags (inc8 (s.regs.get r) s.flags).2

/-- INR M (R171). -/
def execInrM (s : State) : Result :=
  execute .inrM s fun s =>
    (s.writeByte s.hl (inc8 (s.readByte s.hl) s.flags).1).setFlags
      (inc8 (s.readByte s.hl) s.flags).2

/-- DCR r (R172): CY is not written. -/
def execDcrR (r : Reg) (s : State) : Result :=
  execute (.dcrR r) s fun s =>
    (s.setReg r (dec8 s.params.acsub (s.regs.get r) s.flags).1).setFlags
      (dec8 s.params.acsub (s.regs.get r) s.flags).2

/-- DCR M (R173). -/
def execDcrM (s : State) : Result :=
  execute .dcrM s fun s =>
    (s.writeByte s.hl (dec8 s.params.acsub (s.readByte s.hl) s.flags).1).setFlags
      (dec8 s.params.acsub (s.readByte s.hl) s.flags).2

/-- INX rp (R174): no flag is written (the spec's decision D12, assumption log 18). -/
def execInx (p : Pair) (s : State) : Result :=
  execute (.inx p) s fun s => s.setRp p (s.rp p + 1)

/-- DCX rp (R175): no flag is written (the spec's decision D12, assumption log 18). -/
def execDcx (p : Pair) (s : State) : Result :=
  execute (.dcx p) s fun s => s.setRp p (s.rp p - 1)

/-- DAD rp (R176): CY only. -/
def execDad (p : Pair) (s : State) : Result :=
  execute (.dad p) s fun s =>
    (s.setPair .hl (dad16 s.hl (s.rp p) s.flags).1).setFlags (dad16 s.hl (s.rp p) s.flags).2

/-- DAA (R182). -/
def execDaa (s : State) : Result :=
  execute .daa s fun s => s.writeAlu (daa8 s.regs.a s.flags)

end Sys2Proof.Machine
end

