-- ==== Sys2Proof/Machine/Branch.lean ====
section
/-! DEFINITION. Branch instructions (43_branch R230 to R241). None writes a flag (R239). Conditional jumps cost the
same taken or not; a taken conditional CALL or RETURN adds TAKEN_EXTRA (R241). -/

namespace Sys2Proof.Machine

/-- `if cond(c): PC <- addr` (43_branch R232). -/
def State.jumpIf (s : State) (k : Cond) (addr : Word) : State :=
  if s.flags.cond k then s.jump addr else s

/-- `Push(PC); PC <- addr`: PC is the return address (43_branch R233). -/
def State.callTo (s : State) (addr : Word) : State := (s.push s.pc).jump addr

/-- The target of RST n: 8 * n (43_branch R237). -/
def rstTarget (n : BitVec 3) : Word := BitVec.ofNat 16 (8 * n.toNat)

/-- JMP a16 (R231). -/
def execJmp (addr : Word) (s : State) : Result :=
  execute (.jmp addr) s fun s => s.jump addr

/-- JNZ a16 (R232). -/
def execJnz (addr : Word) (s : State) : Result :=
  execute (.jnz addr) s fun s => s.jumpIf .nz addr

/-- JZ a16 (R232). -/
def execJz (addr : Word) (s : State) : Result :=
  execute (.jz addr) s fun s => s.jumpIf .z addr

/-- JNC a16 (R232). -/
def execJnc (addr : Word) (s : State) : Result :=
  execute (.jnc addr) s fun s => s.jumpIf .nc addr

/-- JC a16 (R232). -/
def execJc (addr : Word) (s : State) : Result :=
  execute (.jc addr) s fun s => s.jumpIf .c addr

/-- JPO a16 (R232). -/
def execJpo (addr : Word) (s : State) : Result :=
  execute (.jpo addr) s fun s => s.jumpIf .po addr

/-- JPE a16 (R232). -/
def execJpe (addr : Word) (s : State) : Result :=
  execute (.jpe addr) s fun s => s.jumpIf .pe addr

/-- JP a16 (R232). -/
def execJp (addr : Word) (s : State) : Result :=
  execute (.jp addr) s fun s => s.jumpIf .p addr

/-- JM a16 (R232). -/
def execJm (addr : Word) (s : State) : Result :=
  execute (.jm addr) s fun s => s.jumpIf .m addr

/-- CALL a16 (R233). -/
def execCall (addr : Word) (s : State) : Result :=
  execute (.call addr) s fun s => s.callTo addr

/-- CNZ a16 (R234). -/
def execCnz (addr : Word) (s : State) : Result :=
  executeIf (.cnz addr) .nz s fun s => s.callTo addr

/-- CZ a16 (R234). -/
def execCz (addr : Word) (s : State) : Result :=
  executeIf (.cz addr) .z s fun s => s.callTo addr

/-- CNC a16 (R234). -/
def execCnc (addr : Word) (s : State) : Result :=
  executeIf (.cnc addr) .nc s fun s => s.callTo addr

/-- CC a16 (R234). -/
def execCc (addr : Word) (s : State) : Result :=
  executeIf (.cc addr) .c s fun s => s.callTo addr

/-- CPO a16 (R234). -/
def execCpo (addr : Word) (s : State) : Result :=
  executeIf (.cpo addr) .po s fun s => s.callTo addr

/-- CPE a16 (R234). -/
def execCpe (addr : Word) (s : State) : Result :=
  executeIf (.cpe addr) .pe s fun s => s.callTo addr

/-- CP a16 (R234). -/
def execCp (addr : Word) (s : State) : Result :=
  executeIf (.cp addr) .p s fun s => s.callTo addr

/-- CM a16 (R234). -/
def execCm (addr : Word) (s : State) : Result :=
  executeIf (.cm addr) .m s fun s => s.callTo addr

/-- RET (R235). -/
def execRet (s : State) : Result :=
  execute .ret s fun s => s.popPc

/-- RNZ (R236). -/
def execRnz (s : State) : Result :=
  executeIf .rnz .nz s fun s => s.popPc

/-- RZ (R236). -/
def execRz (s : State) : Result :=
  executeIf .rz .z s fun s => s.popPc

/-- RNC (R236). -/
def execRnc (s : State) : Result :=
  executeIf .rnc .nc s fun s => s.popPc

/-- RC (R236). -/
def execRc (s : State) : Result :=
  executeIf .rc .c s fun s => s.popPc

/-- RPO (R236). -/
def execRpo (s : State) : Result :=
  executeIf .rpo .po s fun s => s.popPc

/-- RPE (R236). -/
def execRpe (s : State) : Result :=
  executeIf .rpe .pe s fun s => s.popPc

/-- RP (R236). -/
def execRp (s : State) : Result :=
  executeIf .rp .p s fun s => s.popPc

/-- RM (R236). -/
def execRm (s : State) : Result :=
  executeIf .rm .m s fun s => s.popPc

/-- RST n (R237). -/
def execRst (n : BitVec 3) (s : State) : Result :=
  execute (.rst n) s fun s => s.callTo (rstTarget n)

/-- PCHL (R238). -/
def execPchl (s : State) : Result :=
  execute .pchl s fun s => s.jump s.hl

end Sys2Proof.Machine
end

