-- ==== Sys2Proof/Machine/DataTransfer.lean ====
section
/-! DEFINITION. Data transfer instructions (40_data_transfer R130 to R145). None writes a flag (R145). -/

namespace Sys2Proof.Machine

/-- MOV r1,r2 (R130). -/
def execMovRR (dst src : Reg) (s : State) : Result :=
  execute (.movRR dst src) s fun s => s.setReg dst (s.regs.get src)

/-- MOV r,M (R131): the address is formed from the old H and L. -/
def execMovRM (dst : Reg) (s : State) : Result :=
  execute (.movRM dst) s fun s => s.setReg dst (s.readByte s.hl)

/-- MOV M,r (R132). -/
def execMovMR (src : Reg) (s : State) : Result :=
  execute (.movMR src) s fun s => s.writeByte s.hl (s.regs.get src)

/-- MVI r,d8 (R133). -/
def execMviR (dst : Reg) (v : Byte) (s : State) : Result :=
  execute (.mviR dst v) s fun s => s.setReg dst v

/-- MVI M,d8 (R134). -/
def execMviM (v : Byte) (s : State) : Result :=
  execute (.mviM v) s fun s => s.writeByte s.hl v

/-- LXI rp,d16 (R135). -/
def execLxi (p : Pair) (w : Word) (s : State) : Result :=
  execute (.lxi p w) s fun s => s.setRp p w

/-- STAX B and STAX D (R136). -/
def execStax (p : IndexPair) (s : State) : Result :=
  execute (.stax p) s fun s => s.writeByte (s.indexAddr p) s.regs.a

/-- LDAX B and LDAX D (R137). -/
def execLdax (p : IndexPair) (s : State) : Result :=
  execute (.ldax p) s fun s => s.setReg .a (s.readByte (s.indexAddr p))

/-- STA a16 (R138). -/
def execSta (addr : Word) (s : State) : Result :=
  execute (.sta addr) s fun s => s.writeByte addr s.regs.a

/-- LDA a16 (R139). -/
def execLda (addr : Word) (s : State) : Result :=
  execute (.lda addr) s fun s => s.setReg .a (s.readByte addr)

/-- SHLD a16 (R140): L at the address, H at the next one modulo 65536. -/
def execShld (addr : Word) (s : State) : Result :=
  execute (.shld addr) s fun s => s.writeWord addr s.hl

/-- LHLD a16 (R141). -/
def execLhld (addr : Word) (s : State) : Result :=
  execute (.lhld addr) s fun s => s.setPair .hl (s.readWord addr)

/-- XCHG (R142). -/
def execXchg (s : State) : Result :=
  execute .xchg s fun s => (s.setPair .hl (s.regs.pair .de)).setPair .de (s.regs.pair .hl)

/-- XTHL (R143): the old stack word is read before HL is stored; SP is not changed. -/
def execXthl (s : State) : Result :=
  execute .xthl s fun s => (s.writeWord s.sp s.hl).setPair .hl (s.readWord s.sp)

/-- SPHL (R144). -/
def execSphl (s : State) : Result :=
  execute .sphl s fun s => s.setSp s.hl

end Sys2Proof.Machine
end

