-- ==== Sys2Proof/Machine/IoControl.lean ====
section
/-! DEFINITION. Input, output and control instructions (45_io_control R270 to R276). None writes a flag (R276). -/

namespace Sys2Proof.Machine

/-- IN port (R270): one device call, and its byte to A. -/
def execInp (port : Byte) (s : State) : Result :=
  execute (.inp port) s fun s => (s.devIn port).2.setReg .a (s.devIn port).1

/-- OUT port (R271): one device call, with A. -/
def execOutp (port : Byte) (s : State) : Result :=
  execute (.outp port) s fun s => s.devOut port s.regs.a

/-- EI (R272): immediate, no delay (assumption log 20). -/
def execEi (s : State) : Result :=
  execute .ei s fun s => s.setInte true

/-- DI (R273). -/
def execDi (s : State) : Result :=
  execute .di s fun s => s.setInte false

/-- HLT (R274): PC is already past the HLT byte. -/
def execHlt (s : State) : Result :=
  execute .hlt s fun s => s.halt

/-- NOP (R275). -/
def execNop (s : State) : Result :=
  execute .nop s fun s => s

end Sys2Proof.Machine
end

