-- ==== Sys2Proof/Machine/Logical.lean ====
section
/-! DEFINITION. Logical, rotate and carry instructions (42_logical R200 to R213). -/

namespace Sys2Proof.Machine

/-- ANA r and ANA M (R200). -/
def execAna (o : Operand) (s : State) : Result :=
  execute (.ana o) s fun s => s.writeAlu (and8 s.regs.a (s.operand o) s.flags)

/-- ANI d8 (R201). -/
def execAni (v : Byte) (s : State) : Result :=
  execute (.ani v) s fun s => s.writeAlu (and8 s.regs.a v s.flags)

/-- XRA r and XRA M (R202). -/
def execXra (o : Operand) (s : State) : Result :=
  execute (.xra o) s fun s => s.writeAlu (xor8 s.regs.a (s.operand o) s.flags)

/-- XRI d8 (R203). -/
def execXri (v : Byte) (s : State) : Result :=
  execute (.xri v) s fun s => s.writeAlu (xor8 s.regs.a v s.flags)

/-- ORA r and ORA M (R204). -/
def execOra (o : Operand) (s : State) : Result :=
  execute (.ora o) s fun s => s.writeAlu (or8 s.regs.a (s.operand o) s.flags)

/-- ORI d8 (R205). -/
def execOri (v : Byte) (s : State) : Result :=
  execute (.ori v) s fun s => s.writeAlu (or8 s.regs.a v s.flags)

/-- RLC (R206). -/
def execRlc (s : State) : Result :=
  execute .rlc s fun s => s.writeAlu (rlc8 s.regs.a s.flags)

/-- RRC (R207). -/
def execRrc (s : State) : Result :=
  execute .rrc s fun s => s.writeAlu (rrc8 s.regs.a s.flags)

/-- RAL (R208). -/
def execRal (s : State) : Result :=
  execute .ral s fun s => s.writeAlu (ral8 s.regs.a s.flags)

/-- RAR (R209). -/
def execRar (s : State) : Result :=
  execute .rar s fun s => s.writeAlu (rar8 s.regs.a s.flags)

/-- CMA (R210): no flag is written. -/
def execCma (s : State) : Result :=
  execute .cma s fun s => s.setReg .a (s.regs.a ^^^ 0xFF)

/-- STC (R211): CY only. -/
def execStc (s : State) : Result :=
  execute .stc s fun s => s.setFlags { s.flags with cy := true }

/-- CMC (R212): CY only. -/
def execCmc (s : State) : Result :=
  execute .cmc s fun s => s.setFlags { s.flags with cy := !s.flags.cy }

end Sys2Proof.Machine
end

