-- ==== Sys2Proof/Machine/Stack.lean ====
section
/-! DEFINITION. Stack instructions (44_stack R253 to R256). -/

namespace Sys2Proof.Machine

/-- PUSH B, PUSH D and PUSH H (R253). -/
def execPush (p : StackPair) (s : State) : Result :=
  execute (.push p) s fun s => s.push (s.regs.pair p)

/-- PUSH PSW (R254). -/
def execPushPsw (s : State) : Result :=
  execute .pushPsw s fun s => s.push s.af

/-- POP B, POP D and POP H (R255). -/
def execPop (p : StackPair) (s : State) : Result :=
  execute (.pop p) s fun s => s.pop.2.setPair p s.pop.1

/-- POP PSW (R256): A and all five flags, from the popped word. -/
def execPopPsw (s : State) : Result :=
  execute .popPsw s fun s => s.pop.2.setAf s.pop.1

end Sys2Proof.Machine
end

