-- ==== Sys2Proof/Machine/Undocumented.lean ====
section
/-! DEFINITION. The 12 undocumented opcode bytes (30_encoding R105, 60_exceptions R301): the error, or what the
instruction each byte duplicates does, under parameter UNDOC. The cycle cost is CYC of the byte itself
(70_reset_and_hazards R340, R350). -/

namespace Sys2Proof.Machine

/-- 08, 10, 18, 20, 28, 30, 38: a duplicate of NOP (R105, R275). -/
def execUndocNop (n : BitVec 3) (s : State) : Result :=
  undocumented (.undocNop n) s (execute (.undocNop n) s fun s => s)

/-- CB: a duplicate of JMP (R105, R231). -/
def execUndocJmp (addr : Word) (s : State) : Result :=
  undocumented (.undocJmp addr) s (execute (.undocJmp addr) s fun s => s.jump addr)

/-- D9: a duplicate of RET (R105, R235). -/
def execUndocRet (s : State) : Result :=
  undocumented .undocRet s (execute .undocRet s fun s => s.popPc)

/-- DD, ED, FD: duplicates of CALL (R105, R233). -/
def execUndocCall (n : BitVec 2) (addr : Word) (s : State) : Result :=
    undocumented (.undocCall n addr) s (execute (.undocCall n addr) s fun s => s.callTo addr)

end Sys2Proof.Machine
end

