-- ==== Sys2Proof/Machine/Dispatch.lean ====
section
/-! DEFINITION. The dispatch: one arm per instruction, each one call of the instruction's meaning
(70_reset_and_hazards R340). -/

namespace Sys2Proof.Machine

def exec (i : Instr) (s : State) : Host.Outcome State Fault Refusal :=
  match i with
  | .movRR dst src => Sys2Proof.Machine.execMovRR dst src s
  | .movRM dst => Sys2Proof.Machine.execMovRM dst s
  | .movMR src => Sys2Proof.Machine.execMovMR src s
  | .mviR dst v => Sys2Proof.Machine.execMviR dst v s
  | .mviM v => Sys2Proof.Machine.execMviM v s
  | .lxi p w => Sys2Proof.Machine.execLxi p w s
  | .stax p => Sys2Proof.Machine.execStax p s
  | .ldax p => Sys2Proof.Machine.execLdax p s
  | .sta addr => Sys2Proof.Machine.execSta addr s
  | .lda addr => Sys2Proof.Machine.execLda addr s
  | .shld addr => Sys2Proof.Machine.execShld addr s
  | .lhld addr => Sys2Proof.Machine.execLhld addr s
  | .xchg => Sys2Proof.Machine.execXchg s
  | .xthl => Sys2Proof.Machine.execXthl s
  | .sphl => Sys2Proof.Machine.execSphl s
  | .add o => Sys2Proof.Machine.execAdd o s
  | .adi v => Sys2Proof.Machine.execAdi v s
  | .adc o => Sys2Proof.Machine.execAdc o s
  | .aci v => Sys2Proof.Machine.execAci v s
  | .sub o => Sys2Proof.Machine.execSub o s
  | .sui v => Sys2Proof.Machine.execSui v s
  | .sbb o => Sys2Proof.Machine.execSbb o s
  | .sbi v => Sys2Proof.Machine.execSbi v s
  | .cmp o => Sys2Proof.Machine.execCmp o s
  | .cpi v => Sys2Proof.Machine.execCpi v s
  | .inrR r => Sys2Proof.Machine.execInrR r s
  | .inrM => Sys2Proof.Machine.execInrM s
  | .dcrR r => Sys2Proof.Machine.execDcrR r s
  | .dcrM => Sys2Proof.Machine.execDcrM s
  | .inx p => Sys2Proof.Machine.execInx p s
  | .dcx p => Sys2Proof.Machine.execDcx p s
  | .dad p => Sys2Proof.Machine.execDad p s
  | .daa => Sys2Proof.Machine.execDaa s
  | .ana o => Sys2Proof.Machine.execAna o s
  | .ani v => Sys2Proof.Machine.execAni v s
  | .xra o => Sys2Proof.Machine.execXra o s
  | .xri v => Sys2Proof.Machine.execXri v s
  | .ora o => Sys2Proof.Machine.execOra o s
  | .ori v => Sys2Proof.Machine.execOri v s
  | .rlc => Sys2Proof.Machine.execRlc s
  | .rrc => Sys2Proof.Machine.execRrc s
  | .ral => Sys2Proof.Machine.execRal s
  | .rar => Sys2Proof.Machine.execRar s
  | .cma => Sys2Proof.Machine.execCma s
  | .stc => Sys2Proof.Machine.execStc s
  | .cmc => Sys2Proof.Machine.execCmc s
  | .jmp addr => Sys2Proof.Machine.execJmp addr s
  | .jnz addr => Sys2Proof.Machine.execJnz addr s
  | .jz addr => Sys2Proof.Machine.execJz addr s
  | .jnc addr => Sys2Proof.Machine.execJnc addr s
  | .jc addr => Sys2Proof.Machine.execJc addr s
  | .jpo addr => Sys2Proof.Machine.execJpo addr s
  | .jpe addr => Sys2Proof.Machine.execJpe addr s
  | .jp addr => Sys2Proof.Machine.execJp addr s
  | .jm addr => Sys2Proof.Machine.execJm addr s
  | .call addr => Sys2Proof.Machine.execCall addr s
  | .cnz addr => Sys2Proof.Machine.execCnz addr s
  | .cz addr => Sys2Proof.Machine.execCz addr s
  | .cnc addr => Sys2Proof.Machine.execCnc addr s
  | .cc addr => Sys2Proof.Machine.execCc addr s
  | .cpo addr => Sys2Proof.Machine.execCpo addr s
  | .cpe addr => Sys2Proof.Machine.execCpe addr s
  | .cp addr => Sys2Proof.Machine.execCp addr s
  | .cm addr => Sys2Proof.Machine.execCm addr s
  | .ret => Sys2Proof.Machine.execRet s
  | .rnz => Sys2Proof.Machine.execRnz s
  | .rz => Sys2Proof.Machine.execRz s
  | .rnc => Sys2Proof.Machine.execRnc s
  | .rc => Sys2Proof.Machine.execRc s
  | .rpo => Sys2Proof.Machine.execRpo s
  | .rpe => Sys2Proof.Machine.execRpe s
  | .rp => Sys2Proof.Machine.execRp s
  | .rm => Sys2Proof.Machine.execRm s
  | .rst n => Sys2Proof.Machine.execRst n s
  | .pchl => Sys2Proof.Machine.execPchl s
  | .push p => Sys2Proof.Machine.execPush p s
  | .pushPsw => Sys2Proof.Machine.execPushPsw s
  | .pop p => Sys2Proof.Machine.execPop p s
  | .popPsw => Sys2Proof.Machine.execPopPsw s
  | .inp port => Sys2Proof.Machine.execInp port s
  | .outp port => Sys2Proof.Machine.execOutp port s
  | .ei => Sys2Proof.Machine.execEi s
  | .di => Sys2Proof.Machine.execDi s
  | .hlt => Sys2Proof.Machine.execHlt s
  | .nop => Sys2Proof.Machine.execNop s
  | .undocNop n => Sys2Proof.Machine.execUndocNop n s
  | .undocJmp addr => Sys2Proof.Machine.execUndocJmp addr s
  | .undocRet => Sys2Proof.Machine.execUndocRet s
  | .undocCall n addr => Sys2Proof.Machine.execUndocCall n addr s

end Sys2Proof.Machine
end

