-- ==== Sys2Proof/Machine/Step.lean ====
section
/-! DEFINITION. One step of the core (70_reset_and_hazards R340, R341), and the placing of a word
where the next step fetches. -/

namespace Sys2Proof.Machine

/-- `step()`: the instruction at PC, carried out wholly (R340); nothing at all while HALTED is 1
(R341, the spec's decision D14, assumption log 12). -/
def step (s : State) : Host.Outcome State Fault Refusal :=
  if s.halted then .next s else exec s.fetchInstr s

/-- The state with the bytes of a table word stored at PC, PC + 1 and PC + 2 (modulo 65536) and
HALTED clear, so that the next step fetches and runs exactly that instruction. It stands for the
host's Load and its setting of PC (assumption logs 14 and 15). -/
def State.withFetchWord (s : State) (nbits w : Nat) : State :=
  { s.placeBytes s.pc (tableBytes nbits w) with halted := false }

end Sys2Proof.Machine
end

