-- ==== Sys2Proof/Machine/HostOps.lean ====
section
/-! DEFINITION. The operations the host performs between steps (70_reset_and_hazards R342): Reset,
Load, direct register and memory writes, step, the interrupt request, and the answers of its device.
The host's reads are State's own fields and the read operations of Machine/Ops.lean. -/

namespace Sys2Proof.Machine

/-- What Reset leaves unspecified (10_state R47, parameters `RESET_*`): any byte in each register,
any SP, any flags. -/
structure ResetValues where
  regs  : Regs
  sp    : Word
  flags : Flags
  deriving DecidableEq, Repr

/-- `Reset()` (70_reset_and_hazards R343): HALTED, INTE, PC and CYCLES to 0, the unspecified state
to any values, memory unchanged. -/
def State.hostReset (s : State) (v : ResetValues) : State :=
  { s with regs := v.regs, sp := v.sp, pc := 0, flags := v.flags, halted := false, inte := false,
           cycles := 0 }

/-- A new core: a reset together with a memory in state `MEM_INIT` (70_reset_and_hazards R343,
R356). Nothing has happened at the device boundary yet. -/
def State.newCore (params : Params) (v : ResetValues) (memInit : Memory) : State :=
  { State.reset with params := params, regs := v.regs, sp := v.sp, flags := v.flags, mem := memInit }

/-- The copy of `Load`: `bytes[i]` to address `offset + i` (20_memory R75). -/
def Memory.load (m : Memory) (offset : Nat) : List Byte → Memory
  | [] => m
  | v :: rest => Memory.load (Memory.write m offset v) (offset + 1) rest

/-- `Load(bytes, offset)`: fails OutOfRange where the image does not fit, and then copies nothing
(20_memory R75, 60_exceptions R302). -/
def State.hostLoad (s : State) (bytes : List Byte) (offset : Nat) : Result :=
  if offset + bytes.length > 65536 then .fault .outOfRange
  else .next { s with mem := Memory.load s.mem offset bytes }

/-- One operation of the host (70_reset_and_hazards R342, 10_state R46). Every item of 10_state R20 can
be written but HALTED and INTE, which R28 and R29 let nothing else write (assumption log 22). -/
inductive HostOp where
  | reset (v : ResetValues)
  | load (bytes : List Byte) (offset : Nat)
  | writeByte (addr : Word) (v : Byte)
  | writeWord (addr : Word) (w : Word)
  | setReg (r : Reg) (v : Byte)
  | setPair (p : StackPair) (w : Word)
  | setAf (w : Word)
  | setF (v : Byte)
  | setFlags (f : Flags)
  | setSp (w : Word)
  | setPc (w : Word)
  | setCycles (n : Nat)
  | clearCycles
  | deviceReady (v : Byte)
  | interrupt (target : Word)
  | step
  deriving DecidableEq, Repr

/-- The effect of one host operation. -/
def State.hostDo (s : State) : HostOp → Result
  | .reset v => .next (s.hostReset v)
  | .load bytes offset => s.hostLoad bytes offset
  | .writeByte addr v => .next (s.writeByte addr v)
  | .writeWord addr w => .next (s.writeWord addr w)
  | .setReg r v => .next (s.setReg r v)
  | .setPair p w => .next (s.setPair p w)
  | .setAf w => .next (s.setAf w)
  | .setF v => .next (s.setFlags (Flags.ofByte v))
  | .setFlags f => .next (s.setFlags f)
  | .setSp w => .next (s.setSp w)
  | .setPc w => .next (s.jump w)
  | .setCycles n => .next (s.setCycles n)
  | .clearCycles => .next (s.setCycles 0)
  | .deviceReady v => .next { s with devInputs := s.devInputs ++ [v] }
  | .interrupt target => .next (s.interrupt target)
  | .step => Sys2Proof.Machine.step s

/-- A schedule of host operations, stopping at the first error: the points and targets of interrupt
requests are whatever the list says (60_exceptions R309, 70_reset_and_hazards R354). -/
def State.drive (s : State) : List HostOp → Result
  | [] => .next s
  | op :: rest =>
    match s.hostDo op with
    | .next t => t.drive rest
    | .fault r => .fault r
    | .refused r => .refused r

/-- What a step or an interrupt request reports to the host: the cycles it added to CYCLES
(70_reset_and_hazards R340, R341, 60_exceptions R322). -/
def reportedCycles (before after : State) : Nat := after.cycles - before.cycles

end Sys2Proof.Machine
end

