-- ==== Sys2Proof/Safety.lean ====
section
/-! DEFINITION. What the claims are stated in: the invariant, the end of a run, the frames (what
stays as it was), and the spec's flag rules and opcode lists written out independently of the
meanings. -/

namespace Sys2Proof.Machine

/-- The invariant of the model: the memory is in its canonical form. -/
def State.Inv (s : State) : Prop := Memory.wf s.mem = true

/-- The final outcome of a run: HALTED is 1 (70_reset_and_hazards R348, D16). -/
def State.Final (s : State) : Prop := s.halted = true

/-- A safe run of n steps: no step of it stops with an error (70_reset_and_hazards R348). -/
def State.SafeFor (s : State) (n : Nat) : Prop := ∃ t, Sys2Proof.core.run n s = .next t

/-! ## Frames: what `t` has as `s` had it -/

/-- Every byte register but those named is as before. -/
def State.RegsKept (s t : State) (but : List Reg) : Prop :=
  ∀ r, r ∉ but → t.regs.get r = s.regs.get r

/-- Every byte of memory but those at the addresses named reads as before. -/
def State.MemKept (s t : State) (but : List Word) : Prop :=
  ∀ a, a ∉ but → t.readByte a = s.readByte a

/-- HALTED and INTE are as before, and so are the parameters. -/
def State.ControlKept (s t : State) : Prop :=
  t.halted = s.halted ∧ t.inte = s.inte ∧ t.params = s.params

/-- Nothing happened at the device boundary. -/
def State.DeviceKept (s t : State) : Prop :=
  t.events = s.events ∧ t.devInputs = s.devInputs ∧ t.devDraws = s.devDraws

/-- Registers, memory, control state and device boundary are as before, but for the registers and
the memory bytes named. SP, the flags, PC and CYCLES are said beside it. -/
def State.Outside (s t : State) (regs : List Reg) (mem : List Word) : Prop :=
  s.RegsKept t regs ∧ s.MemKept t mem ∧ s.ControlKept t ∧ s.DeviceKept t

/-- PC is past the instruction, modulo 65536, and CYCLES grew by `CYC` of its opcode byte
(10_state R23, 70_reset_and_hazards R340). -/
def State.Advanced (s t : State) (i : Instr) : Prop :=
  t.pc = s.pc + BitVec.ofNat 16 i.length ∧ t.cycles = s.cycles + s.params.cycOf i.opcode

/-- `t` holds the word `w` in a pair: high byte in the first register, low byte in the second, or
all of it in SP (10_state R22, 30_encoding R96). -/
def State.PairHolds (t : State) (p : Pair) (w : Word) : Prop :=
  match p with
  | .bc => t.regs.b = hiByte w ∧ t.regs.c = loByte w
  | .de => t.regs.d = hiByte w ∧ t.regs.e = loByte w
  | .hl => t.regs.h = hiByte w ∧ t.regs.l = loByte w
  | .sp => t.sp = w

/-- The byte registers a pair is made of. -/
def pairRegs : Pair → List Reg
  | .bc => [.b, .c]
  | .de => [.d, .e]
  | .hl => [.h, .l]
  | .sp => []

/-- The word `w` lies at `addr`: low byte there, high byte at the next address modulo 65536
(20_memory R64, R65). -/
def State.WordAt (t : State) (addr w : Word) : Prop :=
  t.readByte addr = loByte w ∧ t.readByte (addr + 1) = hiByte w

/-! ## The flag rules, as relations -/

/-- The number of 1 bits of a byte. -/
def oneBits (v : Byte) : Nat :=
  (v.getLsbD 0).toNat + (v.getLsbD 1).toNat + (v.getLsbD 2).toNat + (v.getLsbD 3).toNat
    + (v.getLsbD 4).toNat + (v.getLsbD 5).toNat + (v.getLsbD 6).toNat + (v.getLsbD 7).toNat

/-- Z, S and P are those of the 8-bit result `v` (10_state R32 to R34, R40). -/
def Flags.ZspOf (f : Flags) (v : Byte) : Prop :=
  (f.z = true ↔ v.toNat = 0) ∧ (f.s = true ↔ 128 ≤ v.toNat) ∧ (f.p = true ↔ oneBits v % 2 = 0)

/-- `res` and `f` are what `Add8(a, b, cin)` gives (41_arithmetic R177). -/
def Add8Gives (a b : Byte) (cin : Bool) (res : Byte) (f : Flags) : Prop :=
  res.toNat = (a.toNat + b.toNat + cin.toNat) % 256
    ∧ (f.ac = true ↔ a.toNat % 16 + b.toNat % 16 + cin.toNat > 15)
    ∧ (f.cy = true ↔ a.toNat + b.toNat + cin.toNat > 255)
    ∧ f.ZspOf res

/-- AC is what parameter `ACSUB` makes of the borrow into bit 3 (10_state R38). -/
def Flags.AcFromBorrow (f : Flags) (acsub : AcSub) (borrow3 : Prop) : Prop :=
  (acsub = .borrow → (f.ac = true ↔ borrow3)) ∧ (acsub = .notBorrow → (f.ac = true ↔ ¬ borrow3))

/-- `res` and `f` are what `Sub8(a, b, bin)` gives (41_arithmetic R178). -/
def Sub8Gives (acsub : AcSub) (a b : Byte) (bin : Bool) (res : Byte) (f : Flags) : Prop :=
  (res.toNat : Int) = ((a.toNat : Int) - b.toNat - bin.toNat) % 256
    ∧ f.AcFromBorrow acsub (a.toNat % 16 < b.toNat % 16 + bin.toNat)
    ∧ (f.cy = true ↔ a.toNat < b.toNat + bin.toNat)
    ∧ f.ZspOf res

/-! ## The conditional instructions, with the predicate of each (30_encoding R97, 43_branch R230) -/

/-- Opcode byte, instruction and predicate of the eight conditional jumps (43_branch R232). -/
def conditionalJumps : List (Byte × (Word → Instr) × (Flags → Bool)) :=
  [(0xC2, .jnz, fun f => !f.z), (0xCA, .jz, fun f => f.z),
   (0xD2, .jnc, fun f => !f.cy), (0xDA, .jc, fun f => f.cy),
   (0xE2, .jpo, fun f => !f.p), (0xEA, .jpe, fun f => f.p),
   (0xF2, .jp, fun f => !f.s), (0xFA, .jm, fun f => f.s)]

/-- Opcode byte, instruction and predicate of the eight conditional calls (43_branch R234). -/
def conditionalCalls : List (Byte × (Word → Instr) × (Flags → Bool)) :=
  [(0xC4, .cnz, fun f => !f.z), (0xCC, .cz, fun f => f.z),
   (0xD4, .cnc, fun f => !f.cy), (0xDC, .cc, fun f => f.cy),
   (0xE4, .cpo, fun f => !f.p), (0xEC, .cpe, fun f => f.p),
   (0xF4, .cp, fun f => !f.s), (0xFC, .cm, fun f => f.s)]

/-- Opcode byte, instruction and predicate of the eight conditional returns (43_branch R236). -/
def conditionalReturns : List (Byte × Instr × (Flags → Bool)) :=
  [(0xC0, .rnz, fun f => !f.z), (0xC8, .rz, fun f => f.z),
   (0xD0, .rnc, fun f => !f.cy), (0xD8, .rc, fun f => f.cy),
   (0xE0, .rpo, fun f => !f.p), (0xE8, .rpe, fun f => f.p),
   (0xF0, .rp, fun f => !f.s), (0xF8, .rm, fun f => f.s)]

/-- Whether the opcode byte is one of the sixteen conditional CALL and RETURN bytes and its condition
holds (70_reset_and_hazards R349). -/
def takenByOpcode (op : Byte) (f : Flags) : Bool :=
  (conditionalCalls.any fun e => e.1 == op && e.2.2 f)
    || (conditionalReturns.any fun e => e.1 == op && e.2.2 f)

/-! ## Opcode lists of the spec -/

/-- The opcode bytes of the two-byte instructions (30_encoding R103). -/
def twoByteOpcodes : List Byte :=
  [0x06, 0x0E, 0x16, 0x1E, 0x26, 0x2E, 0x36, 0x3E] ++
  [0xC6, 0xCE, 0xD6, 0xDE, 0xE6, 0xEE, 0xF6, 0xFE] ++ [0xD3, 0xDB]

/-- The opcode bytes of the three-byte instructions, the duplicates among them (30_encoding R103). -/
def threeByteOpcodes : List Byte :=
  [0x01, 0x11, 0x21, 0x31] ++ [0x22, 0x2A, 0x32, 0x3A] ++
  [0xC2, 0xCA, 0xD2, 0xDA, 0xE2, 0xEA, 0xF2, 0xFA] ++ [0xC3] ++
  [0xC4, 0xCC, 0xD4, 0xDC, 0xE4, 0xEC, 0xF4, 0xFC] ++ [0xCD] ++ [0xCB, 0xDD, 0xED, 0xFD]

/-- The length of the instruction with an opcode byte (30_encoding R103). CB, DD, ED and FD have length
3 here whatever `UNDOC` is, because the decoder reads them with their operands under both values
(assumption log 29); R103 lists 3 for them under `UNDOC` = alias. -/
def lengthByOpcode (op : Byte) : Nat :=
  if op ∈ twoByteOpcodes then 2 else if op ∈ threeByteOpcodes then 3 else 1

/-- The 12 undocumented opcode bytes (30_encoding R105). -/
def undocumentedOpcodes : List Byte :=
  [0x08, 0x10, 0x18, 0x20, 0x28, 0x30, 0x38] ++ [0xCB, 0xD9, 0xDD, 0xED, 0xFD]

/-- The opcode bytes that may transfer control: JMP, Jcc, CALL, Ccc, RET, Rcc, RST, PCHL and the
duplicates of JMP, RET and CALL (43_branch R231 to R238, 30_encoding R105). -/
def controlTransferOpcodes : List Byte :=
  [0xC3, 0xCD, 0xC9, 0xE9, 0xCB, 0xD9, 0xDD, 0xED, 0xFD] ++
  [0xC2, 0xCA, 0xD2, 0xDA, 0xE2, 0xEA, 0xF2, 0xFA] ++
  [0xC4, 0xCC, 0xD4, 0xDC, 0xE4, 0xEC, 0xF4, 0xFC] ++
  [0xC0, 0xC8, 0xD0, 0xD8, 0xE0, 0xE8, 0xF0, 0xF8] ++
  [0xC7, 0xCF, 0xD7, 0xDF, 0xE7, 0xEF, 0xF7, 0xFF]

/-- Whether the opcode byte is that of an instruction that writes a flag: the ALU group 10, the ALU
immediates, INR, DCR, DAD, the rotates, DAA, STC, CMC and POP PSW (10_state R41). -/
def writesFlags (op : Byte) : Bool :=
  (0x80 ≤ op.toNat && op.toNat < 0xC0)
    || [0xC6, 0xCE, 0xD6, 0xDE, 0xE6, 0xEE, 0xF6, 0xFE].contains op
    || [0x04, 0x0C, 0x14, 0x1C, 0x24, 0x2C, 0x34, 0x3C].contains op
    || [0x05, 0x0D, 0x15, 0x1D, 0x25, 0x2D, 0x35, 0x3D].contains op
    || [0x09, 0x19, 0x29, 0x39].contains op
    || [0x07, 0x0F, 0x17, 0x1F, 0x27, 0x37, 0x3F, 0xF1].contains op

/-- Whether the opcode byte is that of an instruction that may store: MOV M,r; MVI M; STAX; STA;
SHLD; INR M; DCR M; XTHL; PUSH; CALL, Ccc, RST and the duplicates of CALL (20_memory R74). -/
def mayStore (op : Byte) : Bool :=
  [0x70, 0x71, 0x72, 0x73, 0x74, 0x75, 0x77, 0x36].contains op
    || [0x02, 0x12, 0x32, 0x22, 0x34, 0x35, 0xE3].contains op
    || [0xC5, 0xD5, 0xE5, 0xF5, 0xCD, 0xDD, 0xED, 0xFD].contains op
    || [0xC4, 0xCC, 0xD4, 0xDC, 0xE4, 0xEC, 0xF4, 0xFC].contains op
    || [0xC7, 0xCF, 0xD7, 0xDF, 0xE7, 0xEF, 0xF7, 0xFF].contains op

/-! ## What an instruction stores -/

/-- The instruction `i`, run at `s`, stores the byte `v` at the address `a`: the data-write rows of
20_memory R74, one constructor per byte an instruction stores, in the words of the instruction's own
rule. A conditional CALL stores where its predicate holds, a duplicate of CALL where it executes. -/
inductive State.Stores (s : State) : Instr → Word → Byte → Prop where
  | movMR (src : Reg) : s.Stores (.movMR src) (wordOf s.regs.h s.regs.l) (s.regs.get src)
  | mviM (v : Byte) : s.Stores (.mviM v) (wordOf s.regs.h s.regs.l) v
  | staxBc : s.Stores (.stax .bc) (wordOf s.regs.b s.regs.c) s.regs.a
  | staxDe : s.Stores (.stax .de) (wordOf s.regs.d s.regs.e) s.regs.a
  | sta (addr : Word) : s.Stores (.sta addr) addr s.regs.a
  | shldLow (addr : Word) : s.Stores (.shld addr) addr s.regs.l
  | shldHigh (addr : Word) : s.Stores (.shld addr) (addr + 1) s.regs.h
  | xthlLow : s.Stores .xthl s.sp s.regs.l
  | xthlHigh : s.Stores .xthl (s.sp + 1) s.regs.h
  | inrM (v : Byte)
      (h : v.toNat = ((s.readByte (wordOf s.regs.h s.regs.l)).toNat + 1) % 256) :
      s.Stores .inrM (wordOf s.regs.h s.regs.l) v
  | dcrM (v : Byte)
      (h : v.toNat = ((s.readByte (wordOf s.regs.h s.regs.l)).toNat + 255) % 256) :
      s.Stores .dcrM (wordOf s.regs.h s.regs.l) v
  | pushLow (p : StackPair) : s.Stores (.push p) (s.sp - 2) (s.regs.get (pairLow p))
  | pushHigh (p : StackPair) : s.Stores (.push p) (s.sp - 2 + 1) (s.regs.get (pairHigh p))
  | pushPswLow (v : Byte)
      (h : v.toNat = 128 * s.flags.s.toNat + 64 * s.flags.z.toNat + 16 * s.flags.ac.toNat
        + 4 * s.flags.p.toNat + 2 + s.flags.cy.toNat) :
      s.Stores .pushPsw (s.sp - 2) v
  | pushPswHigh : s.Stores .pushPsw (s.sp - 2 + 1) s.regs.a
  | callLow (addr : Word) : s.Stores (.call addr) (s.sp - 2) (loByte (s.pc + 3))
  | callHigh (addr : Word) : s.Stores (.call addr) (s.sp - 2 + 1) (hiByte (s.pc + 3))
  | condCallLow (e : Byte × (Word → Instr) × (Flags → Bool)) (listed : e ∈ conditionalCalls)
      (taken : e.2.2 s.flags = true) (addr : Word) :
      s.Stores (e.2.1 addr) (s.sp - 2) (loByte (s.pc + 3))
  | condCallHigh (e : Byte × (Word → Instr) × (Flags → Bool)) (listed : e ∈ conditionalCalls)
      (taken : e.2.2 s.flags = true) (addr : Word) :
      s.Stores (e.2.1 addr) (s.sp - 2 + 1) (hiByte (s.pc + 3))
  | rstLow (n : BitVec 3) : s.Stores (.rst n) (s.sp - 2) (loByte (s.pc + 1))
  | rstHigh (n : BitVec 3) : s.Stores (.rst n) (s.sp - 2 + 1) (hiByte (s.pc + 1))
  | undocCallLow (runs : s.params.undoc = .duplicate) (n : BitVec 2) (addr : Word) :
      s.Stores (.undocCall n addr) (s.sp - 2) (loByte (s.pc + 3))
  | undocCallHigh (runs : s.params.undoc = .duplicate) (n : BitVec 2) (addr : Word) :
      s.Stores (.undocCall n addr) (s.sp - 2 + 1) (hiByte (s.pc + 3))

/-- The opcode byte the next step fetches. -/
def State.opcodeAtPc (s : State) : Byte := s.readByte s.pc

end Sys2Proof.Machine
end

