-- ==== Sys2Proof/Certificates/Slice0/Obligations.lean ====
section
/-! DEFINITION. The statements about the machine, for the provers. -/

open Sys2Proof Sys2Proof.Machine

/-- 30_encoding R108: the six opcode bytes the source attests. -/
def Obligations.AttestedOpcodeBytesDecode : Prop :=
  decode [0x3E, 0x05] = .ok (.mviR .a 0x05, []) ∧
  decode [0xC6, 0x03] = .ok (.adi 0x03, []) ∧
  decode [0x06, 0x09] = .ok (.mviR .b 0x09, []) ∧
  decode [0x46] = .ok (.movRM .b, []) ∧
  decode [0x76] = .ok (.hlt, []) ∧
  decode [0xC9] = .ok (.ret, [])

/-- Decoder and encoder agree on every well-formed instruction (30_encoding R91, R104, R105, R111),
and the selector codes that every encode clause is written with are the numbers of 30_encoding R95
and R96. -/
def Obligations.DecodeOfEncode : Prop :=
  (∀ (i : Instr) (rest : List Byte), i.wf = true → decode (encode i ++ rest) = .ok (i, rest)) ∧
  (Reg.b.code = 0 ∧ Reg.c.code = 1 ∧ Reg.d.code = 2 ∧ Reg.e.code = 3 ∧ Reg.h.code = 4 ∧
    Reg.l.code = 5 ∧ Operand.m.code = 6 ∧ Reg.a.code = 7 ∧
    ∀ r : Reg, (Operand.reg r).code = r.code) ∧
  (Pair.bc.code = 0 ∧ Pair.de.code = 1 ∧ Pair.hl.code = 2 ∧ Pair.sp.code = 3) ∧
  (StackPair.bc.code = 0 ∧ StackPair.de.code = 1 ∧ StackPair.hl.code = 2 ∧
    Instr.pushPsw.opcode = 0b11#2 ++ 3#2 ++ 0b0101#4 ∧
    Instr.popPsw.opcode = 0b11#2 ++ 3#2 ++ 0b0001#4) ∧
  (IndexPair.bc.code = 0 ∧ IndexPair.de.code = 1)

/-- The other direction: every byte sequence that decodes has one meaning (30_encoding R104, R105,
R111). -/
def Obligations.EncodeOfDecode : Prop :=
  ∀ (bytes : List Byte) (i : Instr) (rest : List Byte),
    decode bytes = .ok (i, rest) → i.wf = true ∧ bytes = encode i ++ rest

/-- 30_encoding R90 and R103. For CB, DD, ED and FD R103 lists 3 under UNDOC = alias only; that the
decoder reads their operands under both values of UNDOC is the choice of assumption log 29 (DESIGN
CHOICE). -/
def Obligations.OpcodeByteDecidesLength : Prop :=
  ∀ (op x y : Byte) (rest : List Byte), ∃ i r,
    decode (op :: x :: y :: rest) = .ok (i, r) ∧ i.opcode = op ∧ i.length = lengthByOpcode op

/-- 10_state R22, with the vocabulary of the other statements (register names, halves of a word)
written out. -/
def Obligations.PairViewsAreComputed : Prop :=
  ∀ (rs : Regs) (w : Word),
    (rs.get .a = rs.a ∧ rs.get .b = rs.b ∧ rs.get .c = rs.c ∧ rs.get .d = rs.d ∧
      rs.get .e = rs.e ∧ rs.get .h = rs.h ∧ rs.get .l = rs.l) ∧
    (pairHigh .bc = .b ∧ pairLow .bc = .c ∧ pairHigh .de = .d ∧ pairLow .de = .e ∧
      pairHigh .hl = .h ∧ pairLow .hl = .l) ∧
    ((loByte w).toNat = w.toNat % 256 ∧ (hiByte w).toNat = w.toNat / 256 ∧
      ∀ hi lo : Byte, (wordOf hi lo).toNat = hi.toNat * 256 + lo.toNat) ∧
    ∀ p : StackPair,
      (rs.pair p).toNat = (rs.get (pairHigh p)).toNat * 256 + (rs.get (pairLow p)).toNat ∧
      ((rs.setPair p w).get (pairHigh p)).toNat = w.toNat / 256 ∧
      ((rs.setPair p w).get (pairLow p)).toNat = w.toNat % 256 ∧
      (rs.setPair p w).pair p = w ∧
      ∀ r, r ≠ pairHigh p → r ≠ pairLow p → (rs.setPair p w).get r = rs.get r

/-- 10_state R27. -/
def Obligations.AfWriteMasksReservedBits : Prop :=
  ∀ (s : State) (w : Word),
    s.af.toNat = s.regs.a.toNat * 256 + (128 * s.flags.s.toNat + 64 * s.flags.z.toNat
      + 16 * s.flags.ac.toNat + 4 * s.flags.p.toNat + 2 + s.flags.cy.toNat) ∧
    (s.setAf w).regs.a.toNat = w.toNat / 256 ∧
    (s.setAf w).flags.s = w.getLsbD 7 ∧ (s.setAf w).flags.z = w.getLsbD 6 ∧
    (s.setAf w).flags.ac = w.getLsbD 4 ∧ (s.setAf w).flags.p = w.getLsbD 2 ∧
    (s.setAf w).flags.cy = w.getLsbD 0 ∧
    (s.setAf w).af = (w &&& 0xFFD5) ||| 0x0002

/-- 70_reset_and_hazards R340. exec runs at the state whose PC is at the opcode byte (assumption log
24). The halted clause is the choice of 92_eei_decisions D14 (assumption log 12). -/
def Obligations.StepRunsTheDecodedInstruction : Prop :=
  (∀ (s : State) (i : Instr) (rest : List Byte), s.halted = false →
    decode [s.readByte s.pc, s.readByte (s.pc + 1), s.readByte (s.pc + 2)] = .ok (i, rest) →
    i.wf = true → step s = exec i s) ∧
  (∀ s : State, s.halted = true → step s = .next s ∧ reportedCycles s s = 0)

/-- The fetch sees the bytes stored at PC, PC+1 and PC+2 modulo 65536 (assumption logs 14 and 15).
-/
def Obligations.StepRunsThePlacedWord : Prop :=
  ∀ (s : State) (nbits w : Nat) (i : Instr), s.Inv → decodeTableWord nbits w = some i →
    step (s.withFetchWord nbits w) = exec i (s.withFetchWord nbits w)

/-- The invariant of the model over every step, from any state, not only those a run reaches. -/
def Obligations.StepKeepsMemoryCanonical : Prop :=
  ∀ s t : State, s.Inv → step s = .next t → t.Inv

/-- The invariant over every run that the host can drive (70_reset_and_hazards R342, R354). -/
def Obligations.HostScheduleKeepsMemoryCanonical : Prop :=
  ∀ (ops : List HostOp) (s t : State), s.Inv → s.drive ops = .next t →
    t.Inv ∧ t.params = s.params

/-- The base of the invariant. -/
def Obligations.ResetMemoryIsCanonical : Prop :=
  State.reset.Inv ∧
    ∀ (p : Params) (v : ResetValues) (m : Memory), Memory.wf m = true → (State.newCore p v m).Inv

/-- The canonical form makes equal memories equal data. -/
def Obligations.CanonicalMemoriesThatReadAlikeAreEqual : Prop :=
  ∀ m n : Memory, Memory.wf m = true → Memory.wf n = true →
    (∀ a : Word, Memory.read m a.toNat = Memory.read n a.toNat) → m = n

/-- 10_state R28, over every host operation and every state. That an interrupt request leaves HALTED
alone is the decision D13 (assumption log 13). -/
def Obligations.OnlyHltAndResetWriteHalted : Prop :=
  ∀ (s t : State) (op : HostOp), s.hostDo op = .next t → t.halted ≠ s.halted →
    (op = .step ∧ s.halted = false ∧ s.opcodeAtPc = 0x76 ∧ t.halted = true) ∨
    ((∃ v, op = .reset v) ∧ t.halted = false)

/-- 10_state R29, over every host operation and every state. That Reset clears INTE is the decision
D5 (assumption log 3). -/
def Obligations.OnlyEiDiInterruptAndResetWriteInte : Prop :=
  ∀ (s t : State) (op : HostOp), s.hostDo op = .next t → t.inte ≠ s.inte →
    (op = .step ∧ s.opcodeAtPc = 0xFB ∧ t.inte = true) ∨
    (op = .step ∧ s.opcodeAtPc = 0xF3 ∧ t.inte = false) ∨
    ((∃ target, op = .interrupt target) ∧ s.inte = true ∧ t.inte = false) ∨
    ((∃ v, op = .reset v) ∧ t.inte = false)

/-- 60_exceptions R301 and R304. UNDOC and its values are the decision D2 (assumption log 5). -/
def Obligations.StepFailsExactlyAtUndocumentedBytes : Prop :=
  ∀ s : State, s.halted = false →
    (s.params.undoc = .fault → s.opcodeAtPc ∈ undocumentedOpcodes →
      step s = .fault (.unimplementedInstruction s.opcodeAtPc { s with pc := s.pc + 1 })) ∧
    (s.params.undoc = .duplicate ∨ s.opcodeAtPc ∉ undocumentedOpcodes → ∃ t, step s = .next t)

/-- 20_memory R73. -/
def Obligations.StepTouchesDevicesOnlyByInAndOut : Prop :=
  ∀ s t : State, s.halted = false → step s = .next t →
    (s.opcodeAtPc = 0xDB → ∃ v, t.events = s.events ++ [.input (s.readByte (s.pc + 1)) v]) ∧
    (s.opcodeAtPc = 0xD3 →
      t.events = s.events ++ [.output (s.readByte (s.pc + 1)) s.regs.a]) ∧
    (s.opcodeAtPc ≠ 0xDB → s.opcodeAtPc ≠ 0xD3 → s.DeviceKept t)

/-- 70_reset_and_hazards R349 and 43_branch R241, for every table CYC and every TAKEN_EXTRA. -/
def Obligations.StepCountsCycles : Prop :=
  ∀ s t : State, s.halted = false → step s = .next t →
    t.cycles = s.cycles + (s.params.cycOf s.opcodeAtPc
      + if takenByOpcode s.opcodeAtPc s.flags then s.params.takenExtra else 0) ∧
    reportedCycles s t = s.params.cycOf s.opcodeAtPc
      + if takenByOpcode s.opcodeAtPc s.flags then s.params.takenExtra else 0

/-- 70_reset_and_hazards R353 and 10_state R30: cycles gate nothing and feed back into nothing. -/
def Obligations.CyclesNeverFeedBack : Prop :=
  ∀ (s : State) (n : Nat),
    (∀ t, step s = .next t →
      step { s with cycles := s.cycles + n } = .next { t with cycles := t.cycles + n }) ∧
    (∀ op e, step s = .fault (.unimplementedInstruction op e) →
      step { s with cycles := s.cycles + n } =
        .fault (.unimplementedInstruction op { e with cycles := e.cycles + n }))

/-- 10_state R23, with the lengths of 30_encoding R103 and the transfers of 43_branch. -/
def Obligations.StepAdvancesPcByTheLength : Prop :=
  ∀ s t : State, s.halted = false → step s = .next t →
    s.opcodeAtPc ∉ controlTransferOpcodes →
    t.pc = s.pc + BitVec.ofNat 16 (lengthByOpcode s.opcodeAtPc)

/-- The rows of the table of 10_state R41 that write no flag: the last one, CMA, and INX and DCX,
whose writing no flag is the decision D12 (assumption log 18, DESIGN CHOICE). -/
def Obligations.StepKeepsFlagsElsewhere : Prop :=
  ∀ s t : State,
    (step s = .next t → writesFlags s.opcodeAtPc = false → t.flags = s.flags) ∧
    ∀ target, (s.interrupt target).flags = s.flags

/-- The data-write rows of the table of 20_memory R74, with the duplicates of CALL. -/
def Obligations.StepKeepsMemoryElsewhere : Prop :=
  ∀ s t : State, step s = .next t → mayStore s.opcodeAtPc = false → s.MemKept t []

/-- 20_memory R78 for every storing instruction and for the accepted interrupt request of 20_memory
R74; what each stores is written out in State.Stores of Safety.lean. -/
def Obligations.StoreIsSeenByTheNextFetch : Prop :=
  ∀ s : State, s.Inv →
    (s.halted = false → ∀ (i : Instr) (rest : List Byte) (a : Word) (v : Byte),
      decode [s.readByte s.pc, s.readByte (s.pc + 1), s.readByte (s.pc + 2)] = .ok (i, rest) →
      s.Stores i a v →
      ∃ t, step s = .next t ∧ t.readByte a = v ∧ (t.pc = a → t.fetchInstr.opcode = v)) ∧
    (s.halted = false → s.opcodeAtPc = 0x32 →
      wordOf (s.readByte (s.pc + 2)) (s.readByte (s.pc + 1)) = s.pc + 3 →
      ∃ t, step s = .next t ∧ t.pc = s.pc + 3 ∧ t.fetchInstr.opcode = s.regs.a) ∧
    (∀ target : Word, s.inte = true →
      (s.interrupt target).WordAt (s.sp - 2) s.pc ∧
      (target = s.sp - 2 → (s.interrupt target).fetchInstr.opcode = loByte s.pc) ∧
      (target = s.sp - 2 + 1 → (s.interrupt target).fetchInstr.opcode = hiByte s.pc))

/-- 40_data_transfer R130 and R131. -/
def Obligations.MoveToRegister : Prop :=
  ∀ (dst : Reg) (s : State),
    (∀ src : Reg, encode (.movRR dst src) = [0b01#2 ++ dst.code ++ src.code] ∧
      ∃ t, exec (.movRR dst src) s = .next t ∧ t.regs.get dst = s.regs.get src ∧
        s.Outside t [dst] [] ∧ t.sp = s.sp ∧ t.flags = s.flags ∧
        s.Advanced t (.movRR dst src)) ∧
    (encode (.movRM dst) = [0b01#2 ++ dst.code ++ 0b110#3] ∧
      ∃ t, exec (.movRM dst) s = .next t ∧
        t.regs.get dst = s.readByte (wordOf s.regs.h s.regs.l) ∧
        s.Outside t [dst] [] ∧ t.sp = s.sp ∧ t.flags = s.flags ∧ s.Advanced t (.movRM dst))

/-- 40_data_transfer R132. -/
def Obligations.MovToMemory : Prop :=
  (∀ rest, decode (0x76 :: rest) = .ok (.hlt, rest)) ∧
  ∀ (src : Reg) (s : State), s.Inv →
    encode (.movMR src) = [0b01110#5 ++ src.code] ∧
    ∃ t, exec (.movMR src) s = .next t ∧
      t.readByte (wordOf s.regs.h s.regs.l) = s.regs.get src ∧
      s.Outside t [] [wordOf s.regs.h s.regs.l] ∧
      t.sp = s.sp ∧ t.flags = s.flags ∧ s.Advanced t (.movMR src)

/-- 40_data_transfer R133 and R134. -/
def Obligations.MoveImmediate : Prop :=
  (∀ (dst : Reg) (v : Byte) (s : State),
    encode (.mviR dst v) = [0b00#2 ++ dst.code ++ 0b110#3, v] ∧
    ∃ t, exec (.mviR dst v) s = .next t ∧ t.regs.get dst = v ∧
      s.Outside t [dst] [] ∧ t.sp = s.sp ∧ t.flags = s.flags ∧ s.Advanced t (.mviR dst v)) ∧
  (∀ (v : Byte) (s : State), s.Inv →
    encode (.mviM v) = [0x36, v] ∧
    ∃ t, exec (.mviM v) s = .next t ∧ t.readByte (wordOf s.regs.h s.regs.l) = v ∧
      s.Outside t [] [wordOf s.regs.h s.regs.l] ∧
      t.sp = s.sp ∧ t.flags = s.flags ∧ s.Advanced t (.mviM v))

/-- 40_data_transfer R135. -/
def Obligations.LoadPairImmediate : Prop :=
  ∀ (p : Pair) (w : Word) (s : State),
    encode (.lxi p w) = [0b00#2 ++ p.code ++ 0b0001#4, loByte w, hiByte w] ∧
    ∃ t, exec (.lxi p w) s = .next t ∧ t.PairHolds p w ∧
      s.Outside t (pairRegs p) [] ∧ (p ≠ .sp → t.sp = s.sp) ∧
      t.flags = s.flags ∧ s.Advanced t (.lxi p w)

/-- 40_data_transfer R136 and R138. -/
def Obligations.StoreAccumulator : Prop :=
  ∀ s : State, s.Inv →
    (encode (.stax .bc) = [0x02] ∧ ∃ t, exec (.stax .bc) s = .next t ∧
      t.readByte (wordOf s.regs.b s.regs.c) = s.regs.a ∧
      s.Outside t [] [wordOf s.regs.b s.regs.c] ∧
      t.sp = s.sp ∧ t.flags = s.flags ∧ s.Advanced t (.stax .bc)) ∧
    (encode (.stax .de) = [0x12] ∧ ∃ t, exec (.stax .de) s = .next t ∧
      t.readByte (wordOf s.regs.d s.regs.e) = s.regs.a ∧
      s.Outside t [] [wordOf s.regs.d s.regs.e] ∧
      t.sp = s.sp ∧ t.flags = s.flags ∧ s.Advanced t (.stax .de)) ∧
    (∀ addr : Word, encode (.sta addr) = [0x32, loByte addr, hiByte addr] ∧
      ∃ t, exec (.sta addr) s = .next t ∧ t.readByte addr = s.regs.a ∧
        s.Outside t [] [addr] ∧ t.sp = s.sp ∧ t.flags = s.flags ∧ s.Advanced t (.sta addr))

/-- 40_data_transfer R137 and R139. -/
def Obligations.LoadAccumulator : Prop :=
  ∀ s : State,
    (encode (.ldax .bc) = [0x0A] ∧ ∃ t, exec (.ldax .bc) s = .next t ∧
      t.regs.a = s.readByte (wordOf s.regs.b s.regs.c) ∧ s.Outside t [.a] [] ∧
      t.sp = s.sp ∧ t.flags = s.flags ∧ s.Advanced t (.ldax .bc)) ∧
    (encode (.ldax .de) = [0x1A] ∧ ∃ t, exec (.ldax .de) s = .next t ∧
      t.regs.a = s.readByte (wordOf s.regs.d s.regs.e) ∧ s.Outside t [.a] [] ∧
      t.sp = s.sp ∧ t.flags = s.flags ∧ s.Advanced t (.ldax .de)) ∧
    (∀ addr : Word, encode (.lda addr) = [0x3A, loByte addr, hiByte addr] ∧
      ∃ t, exec (.lda addr) s = .next t ∧ t.regs.a = s.readByte addr ∧ s.Outside t [.a] [] ∧
        t.sp = s.sp ∧ t.flags = s.flags ∧ s.Advanced t (.lda addr))

/-- 40_data_transfer R140 and R141. -/
def Obligations.StoreAndLoadHlDirect : Prop :=
  ∀ (addr : Word) (s : State),
    (s.Inv → encode (.shld addr) = [0x22, loByte addr, hiByte addr] ∧
      ∃ t, exec (.shld addr) s = .next t ∧
        t.readByte addr = s.regs.l ∧ t.readByte (addr + 1) = s.regs.h ∧
        s.Outside t [] [addr, addr + 1] ∧
        t.sp = s.sp ∧ t.flags = s.flags ∧ s.Advanced t (.shld addr)) ∧
    (encode (.lhld addr) = [0x2A, loByte addr, hiByte addr] ∧
      ∃ t, exec (.lhld addr) s = .next t ∧
        t.regs.l = s.readByte addr ∧ t.regs.h = s.readByte (addr + 1) ∧
        s.Outside t [.h, .l] [] ∧
        t.sp = s.sp ∧ t.flags = s.flags ∧ s.Advanced t (.lhld addr))

/-- 40_data_transfer R142, R143 and R144. -/
def Obligations.ExchangesAndSphl : Prop :=
  ∀ s : State,
    (encode .xchg = [0xEB] ∧ ∃ t, exec .xchg s = .next t ∧
      t.regs.h = s.regs.d ∧ t.regs.l = s.regs.e ∧ t.regs.d = s.regs.h ∧ t.regs.e = s.regs.l ∧
      s.Outside t [.d, .e, .h, .l] [] ∧
      t.sp = s.sp ∧ t.flags = s.flags ∧ s.Advanced t .xchg) ∧
    (s.Inv → encode .xthl = [0xE3] ∧ ∃ t, exec .xthl s = .next t ∧
      t.regs.l = s.readByte s.sp ∧ t.regs.h = s.readByte (s.sp + 1) ∧
      t.readByte s.sp = s.regs.l ∧ t.readByte (s.sp + 1) = s.regs.h ∧
      s.Outside t [.h, .l] [s.sp, s.sp + 1] ∧
      t.sp = s.sp ∧ t.flags = s.flags ∧ s.Advanced t .xthl) ∧
    (encode .sphl = [0xF9] ∧ ∃ t, exec .sphl s = .next t ∧
      t.sp = wordOf s.regs.h s.regs.l ∧ s.Outside t [] [] ∧
      t.flags = s.flags ∧ s.Advanced t .sphl)

/-- 41_arithmetic R160 to R163 over Add8 of R177. -/
def Obligations.AddInstructions : Prop :=
  ∀ s : State,
    (∀ r : Reg,
      encode (.add (.reg r)) = [0b10000#5 ++ r.code] ∧ ∃ t, exec (.add (.reg r)) s = .next t ∧
        Add8Gives s.regs.a (s.regs.get r) false t.regs.a t.flags ∧
        s.Outside t [.a] [] ∧ t.sp = s.sp ∧ s.Advanced t (.add (.reg r))) ∧
    (encode (.add .m) = [0x86] ∧ ∃ t, exec (.add .m) s = .next t ∧
        Add8Gives s.regs.a (s.readByte (wordOf s.regs.h s.regs.l)) false t.regs.a t.flags ∧
        s.Outside t [.a] [] ∧ t.sp = s.sp ∧ s.Advanced t (.add .m)) ∧
    (∀ v : Byte,
      encode (.adi v) = [0xC6, v] ∧ ∃ t, exec (.adi v) s = .next t ∧
        Add8Gives s.regs.a v false t.regs.a t.flags ∧
        s.Outside t [.a] [] ∧ t.sp = s.sp ∧ s.Advanced t (.adi v)) ∧
    (∀ r : Reg,
      encode (.adc (.reg r)) = [0b10001#5 ++ r.code] ∧ ∃ t, exec (.adc (.reg r)) s = .next t ∧
        Add8Gives s.regs.a (s.regs.get r) s.flags.cy
          t.regs.a t.flags ∧
        s.Outside t [.a] [] ∧ t.sp = s.sp ∧ s.Advanced t (.adc (.reg r))) ∧
    (encode (.adc .m) = [0x8E] ∧ ∃ t, exec (.adc .m) s = .next t ∧
        Add8Gives s.regs.a (s.readByte (wordOf s.regs.h s.regs.l)) s.flags.cy
          t.regs.a t.flags ∧
        s.Outside t [.a] [] ∧ t.sp = s.sp ∧ s.Advanced t (.adc .m)) ∧
    (∀ v : Byte,
      encode (.aci v) = [0xCE, v] ∧ ∃ t, exec (.aci v) s = .next t ∧
        Add8Gives s.regs.a v s.flags.cy t.regs.a t.flags ∧
        s.Outside t [.a] [] ∧ t.sp = s.sp ∧ s.Advanced t (.aci v))

/-- 41_arithmetic R164 to R167 over Sub8 of R178, for both values of ACSUB (assumption log 4). -/
def Obligations.SubtractInstructions : Prop :=
  ∀ s : State,
    (∀ r : Reg,
      encode (.sub (.reg r)) = [0b10010#5 ++ r.code] ∧ ∃ t, exec (.sub (.reg r)) s = .next t ∧
        Sub8Gives s.params.acsub s.regs.a (s.regs.get r) false
          t.regs.a t.flags ∧
        s.Outside t [.a] [] ∧ t.sp = s.sp ∧ s.Advanced t (.sub (.reg r))) ∧
    (encode (.sub .m) = [0x96] ∧ ∃ t, exec (.sub .m) s = .next t ∧
        Sub8Gives s.params.acsub s.regs.a (s.readByte (wordOf s.regs.h s.regs.l)) false
          t.regs.a t.flags ∧
        s.Outside t [.a] [] ∧ t.sp = s.sp ∧ s.Advanced t (.sub .m)) ∧
    (∀ v : Byte,
      encode (.sui v) = [0xD6, v] ∧ ∃ t, exec (.sui v) s = .next t ∧
        Sub8Gives s.params.acsub s.regs.a v false t.regs.a t.flags ∧
        s.Outside t [.a] [] ∧ t.sp = s.sp ∧ s.Advanced t (.sui v)) ∧
    (∀ r : Reg,
      encode (.sbb (.reg r)) = [0b10011#5 ++ r.code] ∧ ∃ t, exec (.sbb (.reg r)) s = .next t ∧
        Sub8Gives s.params.acsub s.regs.a (s.regs.get r) s.flags.cy
          t.regs.a t.flags ∧
        s.Outside t [.a] [] ∧ t.sp = s.sp ∧ s.Advanced t (.sbb (.reg r))) ∧
    (encode (.sbb .m) = [0x9E] ∧ ∃ t, exec (.sbb .m) s = .next t ∧
        Sub8Gives s.params.acsub s.regs.a (s.readByte (wordOf s.regs.h s.regs.l)) s.flags.cy
          t.regs.a t.flags ∧
        s.Outside t [.a] [] ∧ t.sp = s.sp ∧ s.Advanced t (.sbb .m)) ∧
    (∀ v : Byte,
      encode (.sbi v) = [0xDE, v] ∧ ∃ t, exec (.sbi v) s = .next t ∧
        Sub8Gives s.params.acsub s.regs.a v s.flags.cy t.regs.a t.flags ∧
        s.Outside t [.a] [] ∧ t.sp = s.sp ∧ s.Advanced t (.sbi v))

/-- 41_arithmetic R168 and R169, for both values of ACSUB (assumption log 4). -/
def Obligations.CompareInstructions : Prop :=
  ∀ s : State,
    (∀ r : Reg,
      encode (.cmp (.reg r)) = [0b10111#5 ++ r.code] ∧ ∃ t, exec (.cmp (.reg r)) s = .next t ∧
        (∃ res, Sub8Gives s.params.acsub s.regs.a (s.regs.get r)
          false res t.flags) ∧
        (t.flags.z = true ↔ s.regs.a = (s.regs.get r)) ∧
        (t.flags.cy = true ↔ s.regs.a.toNat < (s.regs.get r).toNat) ∧
        s.Outside t [] [] ∧ t.sp = s.sp ∧ s.Advanced t (.cmp (.reg r))) ∧
    (encode (.cmp .m) = [0xBE] ∧ ∃ t, exec (.cmp .m) s = .next t ∧
        (∃ res, Sub8Gives s.params.acsub s.regs.a (s.readByte (wordOf s.regs.h s.regs.l))
          false res t.flags) ∧
        (t.flags.z = true ↔ s.regs.a = (s.readByte (wordOf s.regs.h s.regs.l))) ∧
        (t.flags.cy = true ↔ s.regs.a.toNat < (s.readByte (wordOf s.regs.h s.regs.l)).toNat) ∧
        s.Outside t [] [] ∧ t.sp = s.sp ∧ s.Advanced t (.cmp .m)) ∧
    (∀ v : Byte,
      encode (.cpi v) = [0xFE, v] ∧ ∃ t, exec (.cpi v) s = .next t ∧
        (∃ res, Sub8Gives s.params.acsub s.regs.a v
          false res t.flags) ∧
        (t.flags.z = true ↔ s.regs.a = v) ∧
        (t.flags.cy = true ↔ s.regs.a.toNat < v.toNat) ∧
        s.Outside t [] [] ∧ t.sp = s.sp ∧ s.Advanced t (.cpi v))

/-- 41_arithmetic R170 and R171. -/
def Obligations.IncrementInstructions : Prop :=
  (∀ (r : Reg) (s : State),
    encode (.inrR r) = [0b00#2 ++ r.code ++ 0b100#3] ∧ ∃ t, exec (.inrR r) s = .next t ∧
      (t.regs.get r).toNat = ((s.regs.get r).toNat + 1) % 256 ∧
      (t.flags.ac = true ↔ (s.regs.get r).toNat % 16 = 15) ∧
      t.flags.ZspOf (t.regs.get r) ∧ t.flags.cy = s.flags.cy ∧
      s.Outside t [r] [] ∧ t.sp = s.sp ∧ s.Advanced t (.inrR r)) ∧
  (∀ s : State, s.Inv →
    encode .inrM = [0x34] ∧ ∃ t, exec .inrM s = .next t ∧
      (t.readByte (wordOf s.regs.h s.regs.l)).toNat =
        ((s.readByte (wordOf s.regs.h s.regs.l)).toNat + 1) % 256 ∧
      (t.flags.ac = true ↔ (s.readByte (wordOf s.regs.h s.regs.l)).toNat % 16 = 15) ∧
      t.flags.ZspOf (t.readByte (wordOf s.regs.h s.regs.l)) ∧ t.flags.cy = s.flags.cy ∧
      s.Outside t [] [wordOf s.regs.h s.regs.l] ∧ t.sp = s.sp ∧ s.Advanced t .inrM)

/-- 41_arithmetic R172 and R173, for both values of ACSUB (assumption log 4). -/
def Obligations.DecrementInstructions : Prop :=
  (∀ (r : Reg) (s : State),
    encode (.dcrR r) = [0b00#2 ++ r.code ++ 0b101#3] ∧ ∃ t, exec (.dcrR r) s = .next t ∧
      (t.regs.get r).toNat = ((s.regs.get r).toNat + 255) % 256 ∧
      t.flags.AcFromBorrow s.params.acsub ((s.regs.get r).toNat % 16 = 0) ∧
      t.flags.ZspOf (t.regs.get r) ∧ t.flags.cy = s.flags.cy ∧
      s.Outside t [r] [] ∧ t.sp = s.sp ∧ s.Advanced t (.dcrR r)) ∧
  (∀ s : State, s.Inv →
    encode .dcrM = [0x35] ∧ ∃ t, exec .dcrM s = .next t ∧
      (t.readByte (wordOf s.regs.h s.regs.l)).toNat =
        ((s.readByte (wordOf s.regs.h s.regs.l)).toNat + 255) % 256 ∧
      t.flags.AcFromBorrow s.params.acsub
        ((s.readByte (wordOf s.regs.h s.regs.l)).toNat % 16 = 0) ∧
      t.flags.ZspOf (t.readByte (wordOf s.regs.h s.regs.l)) ∧ t.flags.cy = s.flags.cy ∧
      s.Outside t [] [wordOf s.regs.h s.regs.l] ∧ t.sp = s.sp ∧ s.Advanced t .dcrM)

/-- 41_arithmetic R174 and R175; that no flag is written is the decision D12 (assumption log 18). -/
def Obligations.PairIncrementAndDecrement : Prop :=
  ∀ (p : Pair) (s : State),
    (encode (.inx p) = [0b00#2 ++ p.code ++ 0b0011#4] ∧ ∃ t, exec (.inx p) s = .next t ∧
      (∃ old new, s.PairHolds p old ∧ t.PairHolds p new ∧
        new.toNat = (old.toNat + 1) % 65536) ∧
      s.Outside t (pairRegs p) [] ∧ (p ≠ .sp → t.sp = s.sp) ∧
      t.flags = s.flags ∧ s.Advanced t (.inx p)) ∧
    (encode (.dcx p) = [0b00#2 ++ p.code ++ 0b1011#4] ∧ ∃ t, exec (.dcx p) s = .next t ∧
      (∃ old new, s.PairHolds p old ∧ t.PairHolds p new ∧
        new.toNat = (old.toNat + 65535) % 65536) ∧
      s.Outside t (pairRegs p) [] ∧ (p ≠ .sp → t.sp = s.sp) ∧
      t.flags = s.flags ∧ s.Advanced t (.dcx p))

/-- 41_arithmetic R176; that CY is the carry out of bit 15 is an inference that rule marks as its
own. -/
def Obligations.DoubleAdd : Prop :=
  ∀ (p : Pair) (s : State),
    encode (.dad p) = [0b00#2 ++ p.code ++ 0b1001#4] ∧ ∃ t, exec (.dad p) s = .next t ∧
      (∃ w, s.PairHolds p w ∧
        (wordOf t.regs.h t.regs.l).toNat =
          ((wordOf s.regs.h s.regs.l).toNat + w.toNat) % 65536 ∧
        (t.flags.cy = true ↔ (wordOf s.regs.h s.regs.l).toNat + w.toNat > 65535)) ∧
      t.flags.z = s.flags.z ∧ t.flags.s = s.flags.s ∧ t.flags.p = s.flags.p ∧
      t.flags.ac = s.flags.ac ∧
      s.Outside t [.h, .l] [] ∧ t.sp = s.sp ∧ s.Advanced t (.dad p)

/-- 41_arithmetic R182. -/
def Obligations.DecimalAdjust : Prop :=
  ∀ s : State,
    encode .daa = [0x27] ∧ ∃ t, exec .daa s = .next t ∧
      (∀ lo hi low high : Nat, ∀ adjust : Prop, lo = s.regs.a.toNat % 16 → hi = s.regs.a.toNat / 16 →
        (adjust ↔ hi > 9 ∨ s.flags.cy = true ∨ (hi ≥ 9 ∧ lo > 9)) →
        (lo > 9 ∨ s.flags.ac = true → low = 6) → (¬ (lo > 9 ∨ s.flags.ac = true) → low = 0) →
        (adjust → high = 96) → (¬ adjust → high = 0) →
        t.regs.a.toNat = (s.regs.a.toNat + (low + high)) % 256 ∧
        (t.flags.ac = true ↔ lo + (low + high) % 16 > 15) ∧ (t.flags.cy = true ↔ adjust)) ∧
      t.flags.ZspOf t.regs.a ∧
      s.Outside t [.a] [] ∧ t.sp = s.sp ∧ s.Advanced t .daa

/-- 41_arithmetic R181, for both values of ACSUB. -/
def Obligations.IncrementAndDecrementAreInverse : Prop :=
  (∀ (r : Reg) (s : State),
    (∃ t u, exec (.inrR r) s = .next t ∧ exec (.dcrR r) t = .next u ∧
      u.regs.get r = s.regs.get r ∧ t.flags.cy = s.flags.cy ∧ u.flags.cy = s.flags.cy ∧
      u.flags.ZspOf (s.regs.get r) ∧
      u.flags.AcFromBorrow s.params.acsub ((t.regs.get r).toNat % 16 = 0)) ∧
    (∃ t u, exec (.dcrR r) s = .next t ∧ exec (.inrR r) t = .next u ∧
      u.regs.get r = s.regs.get r ∧ t.flags.cy = s.flags.cy ∧ u.flags.cy = s.flags.cy ∧
      u.flags.ZspOf (s.regs.get r) ∧ (u.flags.ac = true ↔ (t.regs.get r).toNat % 16 = 15))) ∧
  (∀ s : State, s.Inv →
    (∃ t u, exec .inrM s = .next t ∧ exec .dcrM t = .next u ∧
      u.readByte (wordOf s.regs.h s.regs.l) = s.readByte (wordOf s.regs.h s.regs.l) ∧
      t.flags.cy = s.flags.cy ∧ u.flags.cy = s.flags.cy ∧
      u.flags.ZspOf (s.readByte (wordOf s.regs.h s.regs.l)) ∧
      u.flags.AcFromBorrow s.params.acsub
        ((t.readByte (wordOf s.regs.h s.regs.l)).toNat % 16 = 0)) ∧
    (∃ t u, exec .dcrM s = .next t ∧ exec .inrM t = .next u ∧
      u.readByte (wordOf s.regs.h s.regs.l) = s.readByte (wordOf s.regs.h s.regs.l) ∧
      t.flags.cy = s.flags.cy ∧ u.flags.cy = s.flags.cy ∧
      u.flags.ZspOf (s.readByte (wordOf s.regs.h s.regs.l)) ∧
      (u.flags.ac = true ↔ (t.readByte (wordOf s.regs.h s.regs.l)).toNat % 16 = 15)))

/-- 42_logical R200 and R201 (conflict C2 resolved as 90_conflicts says). -/
def Obligations.AndInstructions : Prop :=
  ∀ s : State,
    (∀ r : Reg,
      encode (.ana (.reg r)) = [0b10100#5 ++ r.code] ∧ ∃ t, exec (.ana (.reg r)) s = .next t ∧
        t.regs.a = s.regs.a &&& (s.regs.get r) ∧ t.flags.ZspOf t.regs.a ∧
        t.flags.cy = false ∧ t.flags.ac = (s.regs.a.getLsbD 3 ||
          (s.regs.get r).getLsbD 3) ∧
        s.Outside t [.a] [] ∧ t.sp = s.sp ∧ s.Advanced t (.ana (.reg r))) ∧
    (encode (.ana .m) = [0xA6] ∧ ∃ t, exec (.ana .m) s = .next t ∧
        t.regs.a = s.regs.a &&& (s.readByte (wordOf s.regs.h s.regs.l)) ∧ t.flags.ZspOf t.regs.a ∧
        t.flags.cy = false ∧ t.flags.ac = (s.regs.a.getLsbD 3 ||
          (s.readByte (wordOf s.regs.h s.regs.l)).getLsbD 3) ∧
        s.Outside t [.a] [] ∧ t.sp = s.sp ∧ s.Advanced t (.ana .m)) ∧
    (∀ v : Byte,
      encode (.ani v) = [0xE6, v] ∧ ∃ t, exec (.ani v) s = .next t ∧
        t.regs.a = s.regs.a &&& v ∧ t.flags.ZspOf t.regs.a ∧
        t.flags.cy = false ∧ t.flags.ac = (s.regs.a.getLsbD 3 || v.getLsbD 3) ∧
        s.Outside t [.a] [] ∧ t.sp = s.sp ∧ s.Advanced t (.ani v))

/-- 42_logical R202 to R205. -/
def Obligations.OrAndExclusiveOrInstructions : Prop :=
  ∀ s : State,
    (∀ r : Reg,
      encode (.xra (.reg r)) = [0b10101#5 ++ r.code] ∧ ∃ t, exec (.xra (.reg r)) s = .next t ∧
        t.regs.a = s.regs.a ^^^ (s.regs.get r) ∧ t.flags.ZspOf t.regs.a ∧
        t.flags.cy = false ∧ t.flags.ac = false ∧
        s.Outside t [.a] [] ∧ t.sp = s.sp ∧ s.Advanced t (.xra (.reg r))) ∧
    (encode (.xra .m) = [0xAE] ∧ ∃ t, exec (.xra .m) s = .next t ∧
        t.regs.a = s.regs.a ^^^ (s.readByte (wordOf s.regs.h s.regs.l)) ∧ t.flags.ZspOf t.regs.a ∧
        t.flags.cy = false ∧ t.flags.ac = false ∧
        s.Outside t [.a] [] ∧ t.sp = s.sp ∧ s.Advanced t (.xra .m)) ∧
    (∀ v : Byte,
      encode (.xri v) = [0xEE, v] ∧ ∃ t, exec (.xri v) s = .next t ∧
        t.regs.a = s.regs.a ^^^ v ∧ t.flags.ZspOf t.regs.a ∧
        t.flags.cy = false ∧ t.flags.ac = false ∧
        s.Outside t [.a] [] ∧ t.sp = s.sp ∧ s.Advanced t (.xri v)) ∧
    (∀ r : Reg,
      encode (.ora (.reg r)) = [0b10110#5 ++ r.code] ∧ ∃ t, exec (.ora (.reg r)) s = .next t ∧
        t.regs.a = s.regs.a ||| (s.regs.get r) ∧ t.flags.ZspOf t.regs.a ∧
        t.flags.cy = false ∧ t.flags.ac = false ∧
        s.Outside t [.a] [] ∧ t.sp = s.sp ∧ s.Advanced t (.ora (.reg r))) ∧
    (encode (.ora .m) = [0xB6] ∧ ∃ t, exec (.ora .m) s = .next t ∧
        t.regs.a = s.regs.a ||| (s.readByte (wordOf s.regs.h s.regs.l)) ∧ t.flags.ZspOf t.regs.a ∧
        t.flags.cy = false ∧ t.flags.ac = false ∧
        s.Outside t [.a] [] ∧ t.sp = s.sp ∧ s.Advanced t (.ora .m)) ∧
    (∀ v : Byte,
      encode (.ori v) = [0xF6, v] ∧ ∃ t, exec (.ori v) s = .next t ∧
        t.regs.a = s.regs.a ||| v ∧ t.flags.ZspOf t.regs.a ∧
        t.flags.cy = false ∧ t.flags.ac = false ∧
        s.Outside t [.a] [] ∧ t.sp = s.sp ∧ s.Advanced t (.ori v))

/-- 42_logical R206 to R209. -/
def Obligations.RotateInstructions : Prop :=
  ∀ s : State,
    (encode .rlc = [0x07] ∧ ∃ t, exec .rlc s = .next t ∧
      t.regs.a.toNat = 2 * s.regs.a.toNat % 256 + (s.regs.a.getLsbD 7).toNat ∧
      t.flags = { s.flags with cy := s.regs.a.getLsbD 7 } ∧
      s.Outside t [.a] [] ∧ t.sp = s.sp ∧ s.Advanced t .rlc) ∧
    (encode .rrc = [0x0F] ∧ ∃ t, exec .rrc s = .next t ∧
      t.regs.a.toNat = s.regs.a.toNat / 2 + 128 * (s.regs.a.getLsbD 0).toNat ∧
      t.flags = { s.flags with cy := s.regs.a.getLsbD 0 } ∧
      s.Outside t [.a] [] ∧ t.sp = s.sp ∧ s.Advanced t .rrc) ∧
    (encode .ral = [0x17] ∧ ∃ t, exec .ral s = .next t ∧
      t.regs.a.toNat = 2 * s.regs.a.toNat % 256 + s.flags.cy.toNat ∧
      t.flags = { s.flags with cy := s.regs.a.getLsbD 7 } ∧
      s.Outside t [.a] [] ∧ t.sp = s.sp ∧ s.Advanced t .ral) ∧
    (encode .rar = [0x1F] ∧ ∃ t, exec .rar s = .next t ∧
      t.regs.a.toNat = s.regs.a.toNat / 2 + 128 * s.flags.cy.toNat ∧
      t.flags = { s.flags with cy := s.regs.a.getLsbD 0 } ∧
      s.Outside t [.a] [] ∧ t.sp = s.sp ∧ s.Advanced t .rar)

/-- The corner cases of 42_logical R208 and R209, with the count of conflict C4. -/
def Obligations.RarUndoesRalAndNineRalRestore : Prop :=
  ∀ s : State,
    (∃ t u, exec .ral s = .next t ∧ exec .rar t = .next u ∧
      u.regs.a = s.regs.a ∧ u.flags = s.flags) ∧
    (∃ s₁ s₂ s₃ s₄ s₅ s₆ s₇ s₈ s₉, exec .ral s = .next s₁ ∧ exec .ral s₁ = .next s₂ ∧
      exec .ral s₂ = .next s₃ ∧ exec .ral s₃ = .next s₄ ∧ exec .ral s₄ = .next s₅ ∧
      exec .ral s₅ = .next s₆ ∧ exec .ral s₆ = .next s₇ ∧ exec .ral s₇ = .next s₈ ∧
      exec .ral s₈ = .next s₉ ∧ s₉.regs.a = s.regs.a ∧ s₉.flags = s.flags)

/-- 42_logical R210 to R212. -/
def Obligations.ComplementAndCarryInstructions : Prop :=
  ∀ s : State,
    (encode .cma = [0x2F] ∧ ∃ t, exec .cma s = .next t ∧ t.regs.a = ~~~ s.regs.a ∧
      t.flags = s.flags ∧ s.Outside t [.a] [] ∧ t.sp = s.sp ∧ s.Advanced t .cma) ∧
    (encode .stc = [0x37] ∧ ∃ t, exec .stc s = .next t ∧
      t.flags = { s.flags with cy := true } ∧ s.Outside t [] [] ∧ t.sp = s.sp ∧
      s.Advanced t .stc) ∧
    (encode .cmc = [0x3F] ∧ ∃ t, exec .cmc s = .next t ∧
      t.flags = { s.flags with cy := !s.flags.cy } ∧ s.Outside t [] [] ∧ t.sp = s.sp ∧
      s.Advanced t .cmc)

/-- 43_branch R231, R232 and R238, with the predicates of R230 written out in conditionalJumps. -/
def Obligations.JumpInstructions : Prop :=
  ∀ s : State,
    (∀ addr : Word, encode (.jmp addr) = [0xC3, loByte addr, hiByte addr] ∧
      ∃ t, exec (.jmp addr) s = .next t ∧ t.pc = addr ∧ s.Outside t [] [] ∧
        t.sp = s.sp ∧ t.flags = s.flags ∧ t.cycles = s.cycles + s.params.cycOf 0xC3) ∧
    (∀ e ∈ conditionalJumps, ∀ addr : Word,
      encode (e.2.1 addr) = [e.1, loByte addr, hiByte addr] ∧
      ∃ t, exec (e.2.1 addr) s = .next t ∧
        (e.2.2 s.flags = true → t.pc = addr) ∧ (e.2.2 s.flags = false → t.pc = s.pc + 3) ∧
        s.Outside t [] [] ∧ t.sp = s.sp ∧ t.flags = s.flags ∧
        t.cycles = s.cycles + s.params.cycOf e.1) ∧
    (encode .pchl = [0xE9] ∧ ∃ t, exec .pchl s = .next t ∧
      t.pc = wordOf s.regs.h s.regs.l ∧ s.Outside t [] [] ∧
      t.sp = s.sp ∧ t.flags = s.flags ∧ t.cycles = s.cycles + s.params.cycOf 0xE9)

/-- 43_branch R233 and R237. -/
def Obligations.CallAndRestart : Prop :=
  ∀ s : State, s.Inv →
    (∀ addr : Word, encode (.call addr) = [0xCD, loByte addr, hiByte addr] ∧
      ∃ t, exec (.call addr) s = .next t ∧ t.pc = addr ∧ t.sp = s.sp - 2 ∧
        t.WordAt (s.sp - 2) (s.pc + 3) ∧ s.Outside t [] [s.sp - 2, s.sp - 2 + 1] ∧
        t.flags = s.flags ∧ t.cycles = s.cycles + s.params.cycOf 0xCD) ∧
    (∀ n : BitVec 3, encode (.rst n) = [0b11#2 ++ n ++ 0b111#3] ∧
      ∃ t, exec (.rst n) s = .next t ∧ t.pc.toNat = 8 * n.toNat ∧ t.sp = s.sp - 2 ∧
        t.WordAt (s.sp - 2) (s.pc + 1) ∧ s.Outside t [] [s.sp - 2, s.sp - 2 + 1] ∧
        t.flags = s.flags ∧ t.cycles = s.cycles + s.params.cycOf (0b11#2 ++ n ++ 0b111#3))

/-- 43_branch R234, with the predicates of R230 written out in conditionalCalls. -/
def Obligations.ConditionalCalls : Prop :=
  ∀ e ∈ conditionalCalls, ∀ (addr : Word) (s : State), s.Inv →
    encode (e.2.1 addr) = [e.1, loByte addr, hiByte addr] ∧
    ∃ t, exec (e.2.1 addr) s = .next t ∧ t.flags = s.flags ∧
      (e.2.2 s.flags = true → t.pc = addr ∧ t.sp = s.sp - 2 ∧
        t.WordAt (s.sp - 2) (s.pc + 3) ∧ s.Outside t [] [s.sp - 2, s.sp - 2 + 1] ∧
        t.cycles = s.cycles + (s.params.cycOf e.1 + s.params.takenExtra)) ∧
      (e.2.2 s.flags = false → t.pc = s.pc + 3 ∧ t.sp = s.sp ∧ s.Outside t [] [] ∧
        t.cycles = s.cycles + s.params.cycOf e.1)

/-- 43_branch R235 and R236, with the predicates of R230 written out in conditionalReturns. -/
def Obligations.ReturnInstructions : Prop :=
  ∀ s : State,
    (encode .ret = [0xC9] ∧ ∃ t, exec .ret s = .next t ∧
      t.pc.toNat = (s.readByte s.sp).toNat + 256 * (s.readByte (s.sp + 1)).toNat ∧
      t.sp = s.sp + 2 ∧ s.Outside t [] [] ∧ t.flags = s.flags ∧
      t.cycles = s.cycles + s.params.cycOf 0xC9) ∧
    ∀ e ∈ conditionalReturns, encode e.2.1 = [e.1] ∧
      ∃ t, exec e.2.1 s = .next t ∧ s.Outside t [] [] ∧ t.flags = s.flags ∧
        (e.2.2 s.flags = true →
          t.pc.toNat = (s.readByte s.sp).toNat + 256 * (s.readByte (s.sp + 1)).toNat ∧
          t.sp = s.sp + 2 ∧ t.cycles = s.cycles + (s.params.cycOf e.1 + s.params.takenExtra)) ∧
        (e.2.2 s.flags = false → t.pc = s.pc + 1 ∧ t.sp = s.sp ∧
          t.cycles = s.cycles + s.params.cycOf e.1)

/-- 44_stack R253 and R254. -/
def Obligations.PushInstructions : Prop :=
  ∀ s : State, s.Inv →
    (∀ p : StackPair, encode (.push p) = [0b11#2 ++ p.code ++ 0b0101#4] ∧
      ∃ t, exec (.push p) s = .next t ∧ t.sp = s.sp - 2 ∧
        t.readByte (s.sp - 2) = s.regs.get (pairLow p) ∧
        t.readByte (s.sp - 2 + 1) = s.regs.get (pairHigh p) ∧
        s.Outside t [] [s.sp - 2, s.sp - 2 + 1] ∧ t.flags = s.flags ∧ s.Advanced t (.push p)) ∧
    (encode .pushPsw = [0xF5] ∧ ∃ t, exec .pushPsw s = .next t ∧ t.sp = s.sp - 2 ∧
      (t.readByte (s.sp - 2)).toNat = 128 * s.flags.s.toNat + 64 * s.flags.z.toNat
        + 16 * s.flags.ac.toNat + 4 * s.flags.p.toNat + 2 + s.flags.cy.toNat ∧
      t.readByte (s.sp - 2 + 1) = s.regs.a ∧
      s.Outside t [] [s.sp - 2, s.sp - 2 + 1] ∧ t.flags = s.flags ∧ s.Advanced t .pushPsw)

/-- 44_stack R255 and R256. -/
def Obligations.PopInstructions : Prop :=
  ∀ s : State,
    (∀ p : StackPair, encode (.pop p) = [0b11#2 ++ p.code ++ 0b0001#4] ∧
      ∃ t, exec (.pop p) s = .next t ∧ t.sp = s.sp + 2 ∧
        t.regs.get (pairLow p) = s.readByte s.sp ∧
        t.regs.get (pairHigh p) = s.readByte (s.sp + 1) ∧
        s.Outside t [pairLow p, pairHigh p] [] ∧ t.flags = s.flags ∧ s.Advanced t (.pop p)) ∧
    (encode .popPsw = [0xF1] ∧ ∃ t, exec .popPsw s = .next t ∧ t.sp = s.sp + 2 ∧
      t.regs.a = s.readByte (s.sp + 1) ∧
      t.flags.s = (s.readByte s.sp).getLsbD 7 ∧ t.flags.z = (s.readByte s.sp).getLsbD 6 ∧
      t.flags.ac = (s.readByte s.sp).getLsbD 4 ∧ t.flags.p = (s.readByte s.sp).getLsbD 2 ∧
      t.flags.cy = (s.readByte s.sp).getLsbD 0 ∧
      s.Outside t [.a] [] ∧ s.Advanced t .popPsw)

/-- 44_stack R257. -/
def Obligations.PushThenPopRestores : Prop :=
  ∀ s : State, s.Inv →
    (∀ w : Word, (s.push w).pop.1 = w ∧ (s.push w).pop.2.sp = s.sp) ∧
    (∀ p q : StackPair, ∃ t u, exec (.push p) s = .next t ∧ exec (.pop q) t = .next u ∧
      u.regs.get (pairHigh q) = s.regs.get (pairHigh p) ∧
      u.regs.get (pairLow q) = s.regs.get (pairLow p) ∧ u.sp = s.sp) ∧
    (∃ t u, exec .pushPsw s = .next t ∧ exec .popPsw t = .next u ∧
      u.regs.a = s.regs.a ∧ u.flags = s.flags ∧ u.sp = s.sp)

/-- 45_io_control R270. How the free input is held (devInputs, then Config.devIn) is the choice of
assumption log 9. -/
def Obligations.InputInstruction : Prop :=
  ∀ (port : Byte) (s : State), encode (.inp port) = [0xDB, port] ∧
    ∃ t, exec (.inp port) s = .next t ∧
      t.events = s.events ++ [.input port t.regs.a] ∧
      (∀ v rest, s.devInputs = v :: rest →
        t.regs.a = v ∧ t.devInputs = rest ∧ t.devDraws = s.devDraws) ∧
      (s.devInputs = [] → t.devInputs = [] ∧ t.devDraws = s.devDraws + 1) ∧
      s.RegsKept t [.a] ∧ s.MemKept t [] ∧ s.ControlKept t ∧ t.sp = s.sp ∧
      t.flags = s.flags ∧ s.Advanced t (.inp port)

/-- 45_io_control R271. -/
def Obligations.OutputInstruction : Prop :=
  ∀ (port : Byte) (s : State), encode (.outp port) = [0xD3, port] ∧
    ∃ t, exec (.outp port) s = .next t ∧
      t.events = s.events ++ [.output port s.regs.a] ∧
      t.devInputs = s.devInputs ∧ t.devDraws = s.devDraws ∧
      s.RegsKept t [] ∧ s.MemKept t [] ∧ s.ControlKept t ∧ t.sp = s.sp ∧
      t.flags = s.flags ∧ s.Advanced t (.outp port)

/-- 45_io_control R272 to R275. That EI has no delay is the decision D15 (log 20), and that a step
while halted does nothing is D14 (log 12). -/
def Obligations.ControlInstructions : Prop :=
  ∀ s : State,
    (encode .ei = [0xFB] ∧ ∃ t, exec .ei s = .next t ∧ t.inte = true ∧ t.halted = s.halted ∧
      t.params = s.params ∧ s.RegsKept t [] ∧ s.MemKept t [] ∧ s.DeviceKept t ∧ t.sp = s.sp ∧
      t.flags = s.flags ∧ s.Advanced t .ei ∧
      ∀ target, (t.interrupt target).pc = target ∧ (t.interrupt target).inte = false) ∧
    (encode .di = [0xF3] ∧ ∃ t, exec .di s = .next t ∧ t.inte = false ∧ t.halted = s.halted ∧
      t.params = s.params ∧ s.RegsKept t [] ∧ s.MemKept t [] ∧ s.DeviceKept t ∧ t.sp = s.sp ∧
      t.flags = s.flags ∧ s.Advanced t .di ∧ ∀ target, t.interrupt target = t) ∧
    (encode .hlt = [0x76] ∧ ∃ t, exec .hlt s = .next t ∧ t.halted = true ∧ t.inte = s.inte ∧
      t.params = s.params ∧ s.RegsKept t [] ∧ s.MemKept t [] ∧ s.DeviceKept t ∧ t.sp = s.sp ∧
      t.flags = s.flags ∧ s.Advanced t .hlt ∧ t.Final ∧ step t = .next t) ∧
    (encode .nop = [0x00] ∧ ∃ t, exec .nop s = .next t ∧ s.Outside t [] [] ∧ t.sp = s.sp ∧
      t.flags = s.flags ∧ s.Advanced t .nop)

/-- 30_encoding R105. UNDOC is the decision D2 (log 5); the cycle cost by the byte itself is log 23.
-/
def Obligations.UndocumentedBytesAsDuplicates : Prop :=
  ∀ s : State, s.Inv → s.params.undoc = .duplicate →
    (∀ n : BitVec 3, encode (.undocNop n) = [0b00#2 ++ n ++ 0b000#3] ∧
      ∃ t, exec (.undocNop n) s = .next t ∧ s.Outside t [] [] ∧ t.sp = s.sp ∧
        t.flags = s.flags ∧ s.Advanced t (.undocNop n)) ∧
    (∀ addr : Word, encode (.undocJmp addr) = [0xCB, loByte addr, hiByte addr] ∧
      ∃ t, exec (.undocJmp addr) s = .next t ∧ t.pc = addr ∧ s.Outside t [] [] ∧
        t.sp = s.sp ∧ t.flags = s.flags ∧ t.cycles = s.cycles + s.params.cycOf 0xCB) ∧
    (encode .undocRet = [0xD9] ∧ ∃ t, exec .undocRet s = .next t ∧
      t.pc.toNat = (s.readByte s.sp).toNat + 256 * (s.readByte (s.sp + 1)).toNat ∧
      t.sp = s.sp + 2 ∧ s.Outside t [] [] ∧ t.flags = s.flags ∧
      t.cycles = s.cycles + s.params.cycOf 0xD9) ∧
    (∀ (n : BitVec 2) (addr : Word),
      encode (.undocCall n addr) = [0b11#2 ++ n ++ 0b1101#4, loByte addr, hiByte addr] ∧
      ∃ t, exec (.undocCall n addr) s = .next t ∧ t.pc = addr ∧ t.sp = s.sp - 2 ∧
        t.WordAt (s.sp - 2) (s.pc + 3) ∧ s.Outside t [] [s.sp - 2, s.sp - 2 + 1] ∧
        t.flags = s.flags ∧ t.cycles = s.cycles + s.params.cycOf (0b11#2 ++ n ++ 0b1101#4))

/-- 60_exceptions R301. UNDOC is the decision D2 (log 5). -/
def Obligations.UndocumentedBytesFail : Prop :=
  ∀ s : State, s.params.undoc = .fault →
    (∀ n : BitVec 3, exec (.undocNop n) s =
      .fault (.unimplementedInstruction (0b00#2 ++ n ++ 0b000#3) { s with pc := s.pc + 1 })) ∧
    (∀ addr : Word, exec (.undocJmp addr) s =
      .fault (.unimplementedInstruction 0xCB { s with pc := s.pc + 1 })) ∧
    exec .undocRet s = .fault (.unimplementedInstruction 0xD9 { s with pc := s.pc + 1 }) ∧
    (∀ (n : BitVec 2) (addr : Word), exec (.undocCall n addr) s =
      .fault (.unimplementedInstruction (0b11#2 ++ n ++ 0b1101#4) { s with pc := s.pc + 1 }))

/-- 60_exceptions R307, R308 and R311. That a request is processed so while HALTED is 1 too, and
leaves HALTED at 1, is the decision D13 of R313 (assumption log 13, DESIGN CHOICE). -/
def Obligations.InterruptRequest : Prop :=
  ∀ (s : State) (target : Word),
    (s.Inv → s.inte = true →
      (s.interrupt target).inte = false ∧ (s.interrupt target).pc = target ∧
      (s.interrupt target).sp = s.sp - 2 ∧ (s.interrupt target).WordAt (s.sp - 2) s.pc ∧
      (s.interrupt target).cycles = s.cycles + s.params.intCost ∧
      s.RegsKept (s.interrupt target) [] ∧
      s.MemKept (s.interrupt target) [s.sp - 2, s.sp - 2 + 1] ∧
      (s.interrupt target).flags = s.flags ∧ (s.interrupt target).halted = s.halted ∧
      (s.interrupt target).params = s.params ∧ s.DeviceKept (s.interrupt target)) ∧
    (s.inte = false → s.interrupt target = s)

/-- 60_exceptions R310 and R312, which mark themselves as derived. -/
def Obligations.SecondInterruptIsIgnoredAndRetResumes : Prop :=
  ∀ (s : State) (target other : Word), s.Inv → s.inte = true →
    (s.interrupt target).interrupt other = s.interrupt target ∧
    ∃ t, exec .ret (s.interrupt target) = .next t ∧ t.pc = s.pc ∧ t.sp = s.sp ∧
      t.inte = false ∧ t.flags = s.flags ∧ s.RegsKept t []

/-- 20_memory R75 and 60_exceptions R302. A failed Load has no next state here (assumption log 16).
-/
def Obligations.LoadCopiesTheImage : Prop :=
  ∀ (s : State) (bytes : List Byte) (offset : Nat),
    (s.Inv → offset + bytes.length ≤ 65536 → ∃ t, s.hostLoad bytes offset = .next t ∧
      (∀ i v, bytes[i]? = some v → Memory.read t.mem (offset + i) = v) ∧
      (∀ a, a < offset ∨ offset + bytes.length ≤ a → Memory.read t.mem a = Memory.read s.mem a) ∧
      t = { s with mem := t.mem }) ∧
    (65536 < offset + bytes.length → s.hostLoad bytes offset = .fault .outOfRange)

/-- 70_reset_and_hazards R343; every value but HALTED is the decision D5 (assumption logs 2 and 3).
-/
def Obligations.ResetLeavesTheStatedValues : Prop :=
  (∀ (s : State) (v : ResetValues),
    (s.hostReset v).halted = false ∧ (s.hostReset v).inte = false ∧ (s.hostReset v).pc = 0 ∧
    (s.hostReset v).cycles = 0 ∧ s.MemKept (s.hostReset v) [] ∧
    (s.hostReset v).params = s.params ∧ s.DeviceKept (s.hostReset v) ∧
    (s.hostReset v).regs = v.regs ∧ (s.hostReset v).sp = v.sp ∧ (s.hostReset v).flags = v.flags) ∧
  State.reset.halted = false ∧ State.reset.inte = false ∧ State.reset.pc = 0 ∧
  State.reset.cycles = 0
end

