-- ==== Sys2Proof/Laws/State.lean ====
section
/-! SUPPORT. One lemma per field per update of the state, so that no proof unfolds a record update. -/

namespace Sys2Proof.Machine

variable (s : State)

/-! ### setReg -/

@[simp] theorem State.setReg_regs (r : Reg) (v : Byte) : (s.setReg r v).regs = s.regs.set r v := rfl
@[simp] theorem State.setReg_sp (r : Reg) (v : Byte) : (s.setReg r v).sp = s.sp := rfl
@[simp] theorem State.setReg_pc (r : Reg) (v : Byte) : (s.setReg r v).pc = s.pc := rfl
@[simp] theorem State.setReg_flags (r : Reg) (v : Byte) : (s.setReg r v).flags = s.flags := rfl
@[simp] theorem State.setReg_halted (r : Reg) (v : Byte) : (s.setReg r v).halted = s.halted := rfl
@[simp] theorem State.setReg_inte (r : Reg) (v : Byte) : (s.setReg r v).inte = s.inte := rfl
@[simp] theorem State.setReg_cycles (r : Reg) (v : Byte) : (s.setReg r v).cycles = s.cycles := rfl
@[simp] theorem State.setReg_mem (r : Reg) (v : Byte) : (s.setReg r v).mem = s.mem := rfl
@[simp] theorem State.setReg_events (r : Reg) (v : Byte) : (s.setReg r v).events = s.events := rfl
@[simp] theorem State.setReg_devInputs (r : Reg) (v : Byte) : (s.setReg r v).devInputs = s.devInputs := rfl
@[simp] theorem State.setReg_devDraws (r : Reg) (v : Byte) : (s.setReg r v).devDraws = s.devDraws := rfl
@[simp] theorem State.setReg_params (r : Reg) (v : Byte) : (s.setReg r v).params = s.params := rfl

/-! ### setPair -/

@[simp] theorem State.setPair_regs (p : StackPair) (w : Word) : (s.setPair p w).regs = s.regs.setPair p w := rfl
@[simp] theorem State.setPair_sp (p : StackPair) (w : Word) : (s.setPair p w).sp = s.sp := rfl
@[simp] theorem State.setPair_pc (p : StackPair) (w : Word) : (s.setPair p w).pc = s.pc := rfl
@[simp] theorem State.setPair_flags (p : StackPair) (w : Word) : (s.setPair p w).flags = s.flags := rfl
@[simp] theorem State.setPair_halted (p : StackPair) (w : Word) : (s.setPair p w).halted = s.halted := rfl
@[simp] theorem State.setPair_inte (p : StackPair) (w : Word) : (s.setPair p w).inte = s.inte := rfl
@[simp] theorem State.setPair_cycles (p : StackPair) (w : Word) : (s.setPair p w).cycles = s.cycles := rfl
@[simp] theorem State.setPair_mem (p : StackPair) (w : Word) : (s.setPair p w).mem = s.mem := rfl
@[simp] theorem State.setPair_events (p : StackPair) (w : Word) : (s.setPair p w).events = s.events := rfl
@[simp] theorem State.setPair_devInputs (p : StackPair) (w : Word) : (s.setPair p w).devInputs = s.devInputs := rfl
@[simp] theorem State.setPair_devDraws (p : StackPair) (w : Word) : (s.setPair p w).devDraws = s.devDraws := rfl
@[simp] theorem State.setPair_params (p : StackPair) (w : Word) : (s.setPair p w).params = s.params := rfl

/-! ### setSp -/

@[simp] theorem State.setSp_regs (w : Word) : (s.setSp w).regs = s.regs := rfl
@[simp] theorem State.setSp_sp (w : Word) : (s.setSp w).sp = w := rfl
@[simp] theorem State.setSp_pc (w : Word) : (s.setSp w).pc = s.pc := rfl
@[simp] theorem State.setSp_flags (w : Word) : (s.setSp w).flags = s.flags := rfl
@[simp] theorem State.setSp_halted (w : Word) : (s.setSp w).halted = s.halted := rfl
@[simp] theorem State.setSp_inte (w : Word) : (s.setSp w).inte = s.inte := rfl
@[simp] theorem State.setSp_cycles (w : Word) : (s.setSp w).cycles = s.cycles := rfl
@[simp] theorem State.setSp_mem (w : Word) : (s.setSp w).mem = s.mem := rfl
@[simp] theorem State.setSp_events (w : Word) : (s.setSp w).events = s.events := rfl
@[simp] theorem State.setSp_devInputs (w : Word) : (s.setSp w).devInputs = s.devInputs := rfl
@[simp] theorem State.setSp_devDraws (w : Word) : (s.setSp w).devDraws = s.devDraws := rfl
@[simp] theorem State.setSp_params (w : Word) : (s.setSp w).params = s.params := rfl

/-! ### jump -/

@[simp] theorem State.jump_regs (w : Word) : (s.jump w).regs = s.regs := rfl
@[simp] theorem State.jump_sp (w : Word) : (s.jump w).sp = s.sp := rfl
@[simp] theorem State.jump_pc (w : Word) : (s.jump w).pc = w := rfl
@[simp] theorem State.jump_flags (w : Word) : (s.jump w).flags = s.flags := rfl
@[simp] theorem State.jump_halted (w : Word) : (s.jump w).halted = s.halted := rfl
@[simp] theorem State.jump_inte (w : Word) : (s.jump w).inte = s.inte := rfl
@[simp] theorem State.jump_cycles (w : Word) : (s.jump w).cycles = s.cycles := rfl
@[simp] theorem State.jump_mem (w : Word) : (s.jump w).mem = s.mem := rfl
@[simp] theorem State.jump_events (w : Word) : (s.jump w).events = s.events := rfl
@[simp] theorem State.jump_devInputs (w : Word) : (s.jump w).devInputs = s.devInputs := rfl
@[simp] theorem State.jump_devDraws (w : Word) : (s.jump w).devDraws = s.devDraws := rfl
@[simp] theorem State.jump_params (w : Word) : (s.jump w).params = s.params := rfl

/-! ### setFlags -/

@[simp] theorem State.setFlags_regs (f : Flags) : (s.setFlags f).regs = s.regs := rfl
@[simp] theorem State.setFlags_sp (f : Flags) : (s.setFlags f).sp = s.sp := rfl
@[simp] theorem State.setFlags_pc (f : Flags) : (s.setFlags f).pc = s.pc := rfl
@[simp] theorem State.setFlags_flags (f : Flags) : (s.setFlags f).flags = f := rfl
@[simp] theorem State.setFlags_halted (f : Flags) : (s.setFlags f).halted = s.halted := rfl
@[simp] theorem State.setFlags_inte (f : Flags) : (s.setFlags f).inte = s.inte := rfl
@[simp] theorem State.setFlags_cycles (f : Flags) : (s.setFlags f).cycles = s.cycles := rfl
@[simp] theorem State.setFlags_mem (f : Flags) : (s.setFlags f).mem = s.mem := rfl
@[simp] theorem State.setFlags_events (f : Flags) : (s.setFlags f).events = s.events := rfl
@[simp] theorem State.setFlags_devInputs (f : Flags) : (s.setFlags f).devInputs = s.devInputs := rfl
@[simp] theorem State.setFlags_devDraws (f : Flags) : (s.setFlags f).devDraws = s.devDraws := rfl
@[simp] theorem State.setFlags_params (f : Flags) : (s.setFlags f).params = s.params := rfl

/-! ### setAf -/

@[simp] theorem State.setAf_regs (w : Word) : (s.setAf w).regs = s.regs.set .a (hiByte w) := rfl
@[simp] theorem State.setAf_sp (w : Word) : (s.setAf w).sp = s.sp := rfl
@[simp] theorem State.setAf_pc (w : Word) : (s.setAf w).pc = s.pc := rfl
@[simp] theorem State.setAf_flags (w : Word) : (s.setAf w).flags = Flags.ofByte (loByte w) := rfl
@[simp] theorem State.setAf_halted (w : Word) : (s.setAf w).halted = s.halted := rfl
@[simp] theorem State.setAf_inte (w : Word) : (s.setAf w).inte = s.inte := rfl
@[simp] theorem State.setAf_cycles (w : Word) : (s.setAf w).cycles = s.cycles := rfl
@[simp] theorem State.setAf_mem (w : Word) : (s.setAf w).mem = s.mem := rfl
@[simp] theorem State.setAf_events (w : Word) : (s.setAf w).events = s.events := rfl
@[simp] theorem State.setAf_devInputs (w : Word) : (s.setAf w).devInputs = s.devInputs := rfl
@[simp] theorem State.setAf_devDraws (w : Word) : (s.setAf w).devDraws = s.devDraws := rfl
@[simp] theorem State.setAf_params (w : Word) : (s.setAf w).params = s.params := rfl

/-! ### setInte -/

@[simp] theorem State.setInte_regs (v : Bool) : (s.setInte v).regs = s.regs := rfl
@[simp] theorem State.setInte_sp (v : Bool) : (s.setInte v).sp = s.sp := rfl
@[simp] theorem State.setInte_pc (v : Bool) : (s.setInte v).pc = s.pc := rfl
@[simp] theorem State.setInte_flags (v : Bool) : (s.setInte v).flags = s.flags := rfl
@[simp] theorem State.setInte_halted (v : Bool) : (s.setInte v).halted = s.halted := rfl
@[simp] theorem State.setInte_inte (v : Bool) : (s.setInte v).inte = v := rfl
@[simp] theorem State.setInte_cycles (v : Bool) : (s.setInte v).cycles = s.cycles := rfl
@[simp] theorem State.setInte_mem (v : Bool) : (s.setInte v).mem = s.mem := rfl
@[simp] theorem State.setInte_events (v : Bool) : (s.setInte v).events = s.events := rfl
@[simp] theorem State.setInte_devInputs (v : Bool) : (s.setInte v).devInputs = s.devInputs := rfl
@[simp] theorem State.setInte_devDraws (v : Bool) : (s.setInte v).devDraws = s.devDraws := rfl
@[simp] theorem State.setInte_params (v : Bool) : (s.setInte v).params = s.params := rfl

/-! ### setCycles -/

@[simp] theorem State.setCycles_regs (n : Nat) : (s.setCycles n).regs = s.regs := rfl
@[simp] theorem State.setCycles_sp (n : Nat) : (s.setCycles n).sp = s.sp := rfl
@[simp] theorem State.setCycles_pc (n : Nat) : (s.setCycles n).pc = s.pc := rfl
@[simp] theorem State.setCycles_flags (n : Nat) : (s.setCycles n).flags = s.flags := rfl
@[simp] theorem State.setCycles_halted (n : Nat) : (s.setCycles n).halted = s.halted := rfl
@[simp] theorem State.setCycles_inte (n : Nat) : (s.setCycles n).inte = s.inte := rfl
@[simp] theorem State.setCycles_cycles (n : Nat) : (s.setCycles n).cycles = n := rfl
@[simp] theorem State.setCycles_mem (n : Nat) : (s.setCycles n).mem = s.mem := rfl
@[simp] theorem State.setCycles_events (n : Nat) : (s.setCycles n).events = s.events := rfl
@[simp] theorem State.setCycles_devInputs (n : Nat) : (s.setCycles n).devInputs = s.devInputs := rfl
@[simp] theorem State.setCycles_devDraws (n : Nat) : (s.setCycles n).devDraws = s.devDraws := rfl
@[simp] theorem State.setCycles_params (n : Nat) : (s.setCycles n).params = s.params := rfl

/-! ### halt -/

@[simp] theorem State.halt_regs : (s.halt).regs = s.regs := rfl
@[simp] theorem State.halt_sp : (s.halt).sp = s.sp := rfl
@[simp] theorem State.halt_pc : (s.halt).pc = s.pc := rfl
@[simp] theorem State.halt_flags : (s.halt).flags = s.flags := rfl
@[simp] theorem State.halt_halted : (s.halt).halted = true := rfl
@[simp] theorem State.halt_inte : (s.halt).inte = s.inte := rfl
@[simp] theorem State.halt_cycles : (s.halt).cycles = s.cycles := rfl
@[simp] theorem State.halt_mem : (s.halt).mem = s.mem := rfl
@[simp] theorem State.halt_events : (s.halt).events = s.events := rfl
@[simp] theorem State.halt_devInputs : (s.halt).devInputs = s.devInputs := rfl
@[simp] theorem State.halt_devDraws : (s.halt).devDraws = s.devDraws := rfl
@[simp] theorem State.halt_params : (s.halt).params = s.params := rfl

/-! ### writeByte -/

@[simp] theorem State.writeByte_regs (a : Word) (v : Byte) : (s.writeByte a v).regs = s.regs := rfl
@[simp] theorem State.writeByte_sp (a : Word) (v : Byte) : (s.writeByte a v).sp = s.sp := rfl
@[simp] theorem State.writeByte_pc (a : Word) (v : Byte) : (s.writeByte a v).pc = s.pc := rfl
@[simp] theorem State.writeByte_flags (a : Word) (v : Byte) : (s.writeByte a v).flags = s.flags := rfl
@[simp] theorem State.writeByte_halted (a : Word) (v : Byte) : (s.writeByte a v).halted = s.halted := rfl
@[simp] theorem State.writeByte_inte (a : Word) (v : Byte) : (s.writeByte a v).inte = s.inte := rfl
@[simp] theorem State.writeByte_cycles (a : Word) (v : Byte) : (s.writeByte a v).cycles = s.cycles := rfl
@[simp] theorem State.writeByte_mem (a : Word) (v : Byte) : (s.writeByte a v).mem = Memory.write s.mem a.toNat v := rfl
@[simp] theorem State.writeByte_events (a : Word) (v : Byte) : (s.writeByte a v).events = s.events := rfl
@[simp] theorem State.writeByte_devInputs (a : Word) (v : Byte) : (s.writeByte a v).devInputs = s.devInputs := rfl
@[simp] theorem State.writeByte_devDraws (a : Word) (v : Byte) : (s.writeByte a v).devDraws = s.devDraws := rfl
@[simp] theorem State.writeByte_params (a : Word) (v : Byte) : (s.writeByte a v).params = s.params := rfl

/-! ### writeWord -/

@[simp] theorem State.writeWord_regs (a : Word) (w : Word) : (s.writeWord a w).regs = s.regs := rfl
@[simp] theorem State.writeWord_sp (a : Word) (w : Word) : (s.writeWord a w).sp = s.sp := rfl
@[simp] theorem State.writeWord_pc (a : Word) (w : Word) : (s.writeWord a w).pc = s.pc := rfl
@[simp] theorem State.writeWord_flags (a : Word) (w : Word) : (s.writeWord a w).flags = s.flags := rfl
@[simp] theorem State.writeWord_halted (a : Word) (w : Word) : (s.writeWord a w).halted = s.halted := rfl
@[simp] theorem State.writeWord_inte (a : Word) (w : Word) : (s.writeWord a w).inte = s.inte := rfl
@[simp] theorem State.writeWord_cycles (a : Word) (w : Word) : (s.writeWord a w).cycles = s.cycles := rfl
@[simp] theorem State.writeWord_mem (a : Word) (w : Word) : (s.writeWord a w).mem = Memory.write (Memory.write s.mem a.toNat (loByte w)) (a + 1).toNat (hiByte w) := rfl
@[simp] theorem State.writeWord_events (a : Word) (w : Word) : (s.writeWord a w).events = s.events := rfl
@[simp] theorem State.writeWord_devInputs (a : Word) (w : Word) : (s.writeWord a w).devInputs = s.devInputs := rfl
@[simp] theorem State.writeWord_devDraws (a : Word) (w : Word) : (s.writeWord a w).devDraws = s.devDraws := rfl
@[simp] theorem State.writeWord_params (a : Word) (w : Word) : (s.writeWord a w).params = s.params := rfl

/-! ### past -/

@[simp] theorem State.past_regs (i : Instr) : (s.past i).regs = s.regs := rfl
@[simp] theorem State.past_sp (i : Instr) : (s.past i).sp = s.sp := rfl
@[simp] theorem State.past_pc (i : Instr) : (s.past i).pc = s.pc + BitVec.ofNat 16 i.length := rfl
@[simp] theorem State.past_flags (i : Instr) : (s.past i).flags = s.flags := rfl
@[simp] theorem State.past_halted (i : Instr) : (s.past i).halted = s.halted := rfl
@[simp] theorem State.past_inte (i : Instr) : (s.past i).inte = s.inte := rfl
@[simp] theorem State.past_cycles (i : Instr) : (s.past i).cycles = s.cycles := rfl
@[simp] theorem State.past_mem (i : Instr) : (s.past i).mem = s.mem := rfl
@[simp] theorem State.past_events (i : Instr) : (s.past i).events = s.events := rfl
@[simp] theorem State.past_devInputs (i : Instr) : (s.past i).devInputs = s.devInputs := rfl
@[simp] theorem State.past_devDraws (i : Instr) : (s.past i).devDraws = s.devDraws := rfl
@[simp] theorem State.past_params (i : Instr) : (s.past i).params = s.params := rfl

/-! ### push -/

@[simp] theorem State.push_regs (w : Word) : (s.push w).regs = s.regs := rfl
@[simp] theorem State.push_sp (w : Word) : (s.push w).sp = s.sp - 2 := rfl
@[simp] theorem State.push_pc (w : Word) : (s.push w).pc = s.pc := rfl
@[simp] theorem State.push_flags (w : Word) : (s.push w).flags = s.flags := rfl
@[simp] theorem State.push_halted (w : Word) : (s.push w).halted = s.halted := rfl
@[simp] theorem State.push_inte (w : Word) : (s.push w).inte = s.inte := rfl
@[simp] theorem State.push_cycles (w : Word) : (s.push w).cycles = s.cycles := rfl
@[simp] theorem State.push_mem (w : Word) : (s.push w).mem = (s.writeWord (s.sp - 2) w).mem := rfl
@[simp] theorem State.push_events (w : Word) : (s.push w).events = s.events := rfl
@[simp] theorem State.push_devInputs (w : Word) : (s.push w).devInputs = s.devInputs := rfl
@[simp] theorem State.push_devDraws (w : Word) : (s.push w).devDraws = s.devDraws := rfl
@[simp] theorem State.push_params (w : Word) : (s.push w).params = s.params := rfl

/-! ### devOut -/

@[simp] theorem State.devOut_regs (p v : Byte) : (s.devOut p v).regs = s.regs := rfl
@[simp] theorem State.devOut_sp (p v : Byte) : (s.devOut p v).sp = s.sp := rfl
@[simp] theorem State.devOut_pc (p v : Byte) : (s.devOut p v).pc = s.pc := rfl
@[simp] theorem State.devOut_flags (p v : Byte) : (s.devOut p v).flags = s.flags := rfl
@[simp] theorem State.devOut_halted (p v : Byte) : (s.devOut p v).halted = s.halted := rfl
@[simp] theorem State.devOut_inte (p v : Byte) : (s.devOut p v).inte = s.inte := rfl
@[simp] theorem State.devOut_cycles (p v : Byte) : (s.devOut p v).cycles = s.cycles := rfl
@[simp] theorem State.devOut_mem (p v : Byte) : (s.devOut p v).mem = s.mem := rfl
@[simp] theorem State.devOut_events (p v : Byte) : (s.devOut p v).events = s.events ++ [.output p v] := rfl
@[simp] theorem State.devOut_devInputs (p v : Byte) : (s.devOut p v).devInputs = s.devInputs := rfl
@[simp] theorem State.devOut_devDraws (p v : Byte) : (s.devOut p v).devDraws = s.devDraws := rfl
@[simp] theorem State.devOut_params (p v : Byte) : (s.devOut p v).params = s.params := rfl

/-! ### retire -/

@[simp] theorem State.retire_regs (i : Instr) (n : Nat) : (s.retire i n).regs = s.regs := rfl
@[simp] theorem State.retire_sp (i : Instr) (n : Nat) : (s.retire i n).sp = s.sp := rfl
@[simp] theorem State.retire_pc (i : Instr) (n : Nat) : (s.retire i n).pc = s.pc := rfl
@[simp] theorem State.retire_flags (i : Instr) (n : Nat) : (s.retire i n).flags = s.flags := rfl
@[simp] theorem State.retire_halted (i : Instr) (n : Nat) : (s.retire i n).halted = s.halted := rfl
@[simp] theorem State.retire_inte (i : Instr) (n : Nat) : (s.retire i n).inte = s.inte := rfl
@[simp] theorem State.retire_cycles (i : Instr) (n : Nat) : (s.retire i n).cycles = s.cycles + (s.params.cycOf i.opcode + n) := rfl
@[simp] theorem State.retire_mem (i : Instr) (n : Nat) : (s.retire i n).mem = s.mem := rfl
@[simp] theorem State.retire_events (i : Instr) (n : Nat) : (s.retire i n).events = s.events := rfl
@[simp] theorem State.retire_devInputs (i : Instr) (n : Nat) : (s.retire i n).devInputs = s.devInputs := rfl
@[simp] theorem State.retire_devDraws (i : Instr) (n : Nat) : (s.retire i n).devDraws = s.devDraws := rfl
@[simp] theorem State.retire_params (i : Instr) (n : Nat) : (s.retire i n).params = s.params := rfl

/-! ### writeAlu -/

@[simp] theorem State.writeAlu_regs (x : Byte × Flags) : (s.writeAlu x).regs = s.regs.set .a x.1 := rfl
@[simp] theorem State.writeAlu_sp (x : Byte × Flags) : (s.writeAlu x).sp = s.sp := rfl
@[simp] theorem State.writeAlu_pc (x : Byte × Flags) : (s.writeAlu x).pc = s.pc := rfl
@[simp] theorem State.writeAlu_flags (x : Byte × Flags) : (s.writeAlu x).flags = x.2 := rfl
@[simp] theorem State.writeAlu_halted (x : Byte × Flags) : (s.writeAlu x).halted = s.halted := rfl
@[simp] theorem State.writeAlu_inte (x : Byte × Flags) : (s.writeAlu x).inte = s.inte := rfl
@[simp] theorem State.writeAlu_cycles (x : Byte × Flags) : (s.writeAlu x).cycles = s.cycles := rfl
@[simp] theorem State.writeAlu_mem (x : Byte × Flags) : (s.writeAlu x).mem = s.mem := rfl
@[simp] theorem State.writeAlu_events (x : Byte × Flags) : (s.writeAlu x).events = s.events := rfl
@[simp] theorem State.writeAlu_devInputs (x : Byte × Flags) : (s.writeAlu x).devInputs = s.devInputs := rfl
@[simp] theorem State.writeAlu_devDraws (x : Byte × Flags) : (s.writeAlu x).devDraws = s.devDraws := rfl
@[simp] theorem State.writeAlu_params (x : Byte × Flags) : (s.writeAlu x).params = s.params := rfl

/-! ### popPc -/

@[simp] theorem State.popPc_regs : (s.popPc).regs = s.regs := rfl
@[simp] theorem State.popPc_sp : (s.popPc).sp = s.sp + 2 := rfl
@[simp] theorem State.popPc_pc : (s.popPc).pc = s.readWord s.sp := rfl
@[simp] theorem State.popPc_flags : (s.popPc).flags = s.flags := rfl
@[simp] theorem State.popPc_halted : (s.popPc).halted = s.halted := rfl
@[simp] theorem State.popPc_inte : (s.popPc).inte = s.inte := rfl
@[simp] theorem State.popPc_cycles : (s.popPc).cycles = s.cycles := rfl
@[simp] theorem State.popPc_mem : (s.popPc).mem = s.mem := rfl
@[simp] theorem State.popPc_events : (s.popPc).events = s.events := rfl
@[simp] theorem State.popPc_devInputs : (s.popPc).devInputs = s.devInputs := rfl
@[simp] theorem State.popPc_devDraws : (s.popPc).devDraws = s.devDraws := rfl
@[simp] theorem State.popPc_params : (s.popPc).params = s.params := rfl

/-! ### callTo -/

@[simp] theorem State.callTo_regs (w : Word) : (s.callTo w).regs = s.regs := rfl
@[simp] theorem State.callTo_sp (w : Word) : (s.callTo w).sp = s.sp - 2 := rfl
@[simp] theorem State.callTo_pc (w : Word) : (s.callTo w).pc = w := rfl
@[simp] theorem State.callTo_flags (w : Word) : (s.callTo w).flags = s.flags := rfl
@[simp] theorem State.callTo_halted (w : Word) : (s.callTo w).halted = s.halted := rfl
@[simp] theorem State.callTo_inte (w : Word) : (s.callTo w).inte = s.inte := rfl
@[simp] theorem State.callTo_cycles (w : Word) : (s.callTo w).cycles = s.cycles := rfl
@[simp] theorem State.callTo_mem (w : Word) : (s.callTo w).mem = (s.writeWord (s.sp - 2) s.pc).mem := rfl
@[simp] theorem State.callTo_events (w : Word) : (s.callTo w).events = s.events := rfl
@[simp] theorem State.callTo_devInputs (w : Word) : (s.callTo w).devInputs = s.devInputs := rfl
@[simp] theorem State.callTo_devDraws (w : Word) : (s.callTo w).devDraws = s.devDraws := rfl
@[simp] theorem State.callTo_params (w : Word) : (s.callTo w).params = s.params := rfl

/-! ### Reading memory after an update that does not store -/

@[simp] theorem State.setReg_readByte (r : Reg) (v : Byte) (y : Word) : (s.setReg r v).readByte y = s.readByte y := rfl
@[simp] theorem State.setReg_readWord (r : Reg) (v : Byte) (y : Word) : (s.setReg r v).readWord y = s.readWord y := rfl
@[simp] theorem State.setPair_readByte (p : StackPair) (w : Word) (y : Word) : (s.setPair p w).readByte y = s.readByte y := rfl
@[simp] theorem State.setPair_readWord (p : StackPair) (w : Word) (y : Word) : (s.setPair p w).readWord y = s.readWord y := rfl
@[simp] theorem State.setSp_readByte (w : Word) (y : Word) : (s.setSp w).readByte y = s.readByte y := rfl
@[simp] theorem State.setSp_readWord (w : Word) (y : Word) : (s.setSp w).readWord y = s.readWord y := rfl
@[simp] theorem State.jump_readByte (w : Word) (y : Word) : (s.jump w).readByte y = s.readByte y := rfl
@[simp] theorem State.jump_readWord (w : Word) (y : Word) : (s.jump w).readWord y = s.readWord y := rfl
@[simp] theorem State.setFlags_readByte (f : Flags) (y : Word) : (s.setFlags f).readByte y = s.readByte y := rfl
@[simp] theorem State.setFlags_readWord (f : Flags) (y : Word) : (s.setFlags f).readWord y = s.readWord y := rfl
@[simp] theorem State.setAf_readByte (w : Word) (y : Word) : (s.setAf w).readByte y = s.readByte y := rfl
@[simp] theorem State.setAf_readWord (w : Word) (y : Word) : (s.setAf w).readWord y = s.readWord y := rfl
@[simp] theorem State.setInte_readByte (v : Bool) (y : Word) : (s.setInte v).readByte y = s.readByte y := rfl
@[simp] theorem State.setInte_readWord (v : Bool) (y : Word) : (s.setInte v).readWord y = s.readWord y := rfl
@[simp] theorem State.setCycles_readByte (n : Nat) (y : Word) : (s.setCycles n).readByte y = s.readByte y := rfl
@[simp] theorem State.setCycles_readWord (n : Nat) (y : Word) : (s.setCycles n).readWord y = s.readWord y := rfl
@[simp] theorem State.halt_readByte (y : Word) : (s.halt).readByte y = s.readByte y := rfl
@[simp] theorem State.halt_readWord (y : Word) : (s.halt).readWord y = s.readWord y := rfl
@[simp] theorem State.past_readByte (i : Instr) (y : Word) : (s.past i).readByte y = s.readByte y := rfl
@[simp] theorem State.past_readWord (i : Instr) (y : Word) : (s.past i).readWord y = s.readWord y := rfl
@[simp] theorem State.devOut_readByte (p v : Byte) (y : Word) : (s.devOut p v).readByte y = s.readByte y := rfl
@[simp] theorem State.devOut_readWord (p v : Byte) (y : Word) : (s.devOut p v).readWord y = s.readWord y := rfl
@[simp] theorem State.retire_readByte (i : Instr) (n : Nat) (y : Word) : (s.retire i n).readByte y = s.readByte y := rfl
@[simp] theorem State.retire_readWord (i : Instr) (n : Nat) (y : Word) : (s.retire i n).readWord y = s.readWord y := rfl
@[simp] theorem State.writeAlu_readByte (x : Byte × Flags) (y : Word) : (s.writeAlu x).readByte y = s.readByte y := rfl
@[simp] theorem State.writeAlu_readWord (x : Byte × Flags) (y : Word) : (s.writeAlu x).readWord y = s.readWord y := rfl
@[simp] theorem State.popPc_readByte (y : Word) : (s.popPc).readByte y = s.readByte y := rfl
@[simp] theorem State.popPc_readWord (y : Word) : (s.popPc).readWord y = s.readWord y := rfl
@[simp] theorem State.pop_readByte (y : Word) : (s.pop.2).readByte y = s.readByte y := rfl
@[simp] theorem State.pop_readWord (y : Word) : (s.pop.2).readWord y = s.readWord y := rfl

/-! ### Operands are read with PC already past the instruction -/

@[simp] theorem State.past_hl (i : Instr) : (s.past i).hl = s.hl := rfl
@[simp] theorem State.past_operand (i : Instr) (x : Operand) : (s.past i).operand x = s.operand x := by
  cases x <;> rfl
@[simp] theorem State.past_rp (i : Instr) (p : Pair) : (s.past i).rp p = s.rp p := by cases p <;> rfl
@[simp] theorem State.past_indexAddr (i : Instr) (p : IndexPair) :
    (s.past i).indexAddr p = s.indexAddr p := by cases p <;> rfl
@[simp] theorem State.past_af (i : Instr) : (s.past i).af = s.af := rfl
@[simp] theorem State.past_devIn (i : Instr) (p : Byte) : ((s.past i).devIn p).1 = (s.devIn p).1 := by
  unfold State.devIn; rw [State.past_devInputs]; split <;> rfl

/-! ### pop -/

@[simp] theorem State.pop_value : s.pop.1 = s.readWord s.sp := rfl
@[simp] theorem State.pop_regs : s.pop.2.regs = s.regs := rfl
@[simp] theorem State.pop_sp : s.pop.2.sp = s.sp + 2 := rfl
@[simp] theorem State.pop_pc : s.pop.2.pc = s.pc := rfl
@[simp] theorem State.pop_flags : s.pop.2.flags = s.flags := rfl
@[simp] theorem State.pop_halted : s.pop.2.halted = s.halted := rfl
@[simp] theorem State.pop_inte : s.pop.2.inte = s.inte := rfl
@[simp] theorem State.pop_cycles : s.pop.2.cycles = s.cycles := rfl
@[simp] theorem State.pop_mem : s.pop.2.mem = s.mem := rfl
@[simp] theorem State.pop_events : s.pop.2.events = s.events := rfl
@[simp] theorem State.pop_devInputs : s.pop.2.devInputs = s.devInputs := rfl
@[simp] theorem State.pop_devDraws : s.pop.2.devDraws = s.devDraws := rfl
@[simp] theorem State.pop_params : s.pop.2.params = s.params := rfl

/-! ### setRp -/

@[simp] theorem State.setRp_pc (p : Pair) (w : Word) : (s.setRp p w).pc = s.pc := by cases p <;> rfl
@[simp] theorem State.setRp_flags (p : Pair) (w : Word) : (s.setRp p w).flags = s.flags := by cases p <;> rfl
@[simp] theorem State.setRp_halted (p : Pair) (w : Word) : (s.setRp p w).halted = s.halted := by cases p <;> rfl
@[simp] theorem State.setRp_inte (p : Pair) (w : Word) : (s.setRp p w).inte = s.inte := by cases p <;> rfl
@[simp] theorem State.setRp_cycles (p : Pair) (w : Word) : (s.setRp p w).cycles = s.cycles := by cases p <;> rfl
@[simp] theorem State.setRp_mem (p : Pair) (w : Word) : (s.setRp p w).mem = s.mem := by cases p <;> rfl
@[simp] theorem State.setRp_events (p : Pair) (w : Word) : (s.setRp p w).events = s.events := by cases p <;> rfl
@[simp] theorem State.setRp_devInputs (p : Pair) (w : Word) : (s.setRp p w).devInputs = s.devInputs := by cases p <;> rfl
@[simp] theorem State.setRp_devDraws (p : Pair) (w : Word) : (s.setRp p w).devDraws = s.devDraws := by cases p <;> rfl
@[simp] theorem State.setRp_params (p : Pair) (w : Word) : (s.setRp p w).params = s.params := by cases p <;> rfl

/-! ### devIn -/

@[simp] theorem State.devIn_regs (p : Byte) : (s.devIn p).2.regs = s.regs := by
  unfold State.devIn; split <;> rfl
@[simp] theorem State.devIn_sp (p : Byte) : (s.devIn p).2.sp = s.sp := by
  unfold State.devIn; split <;> rfl
@[simp] theorem State.devIn_pc (p : Byte) : (s.devIn p).2.pc = s.pc := by
  unfold State.devIn; split <;> rfl
@[simp] theorem State.devIn_flags (p : Byte) : (s.devIn p).2.flags = s.flags := by
  unfold State.devIn; split <;> rfl
@[simp] theorem State.devIn_halted (p : Byte) : (s.devIn p).2.halted = s.halted := by
  unfold State.devIn; split <;> rfl
@[simp] theorem State.devIn_inte (p : Byte) : (s.devIn p).2.inte = s.inte := by
  unfold State.devIn; split <;> rfl
@[simp] theorem State.devIn_cycles (p : Byte) : (s.devIn p).2.cycles = s.cycles := by
  unfold State.devIn; split <;> rfl
@[simp] theorem State.devIn_mem (p : Byte) : (s.devIn p).2.mem = s.mem := by
  unfold State.devIn; split <;> rfl
@[simp] theorem State.devIn_params (p : Byte) : (s.devIn p).2.params = s.params := by
  unfold State.devIn; split <;> rfl

/-- Every device read is recorded with the byte it answered (20_memory R71). -/
@[simp] theorem State.devIn_events (p : Byte) :
    (s.devIn p).2.events = s.events ++ [.input p (s.devIn p).1] := by
  unfold State.devIn; split <;> rfl

/-! ### Registers -/

@[simp] theorem Regs.get_set_same (rs : Regs) (r : Reg) (v : Byte) : (rs.set r v).get r = v := by
  cases r <;> rfl

theorem Regs.get_set_other (rs : Regs) {r q : Reg} (v : Byte) (h : q ≠ r) :
    (rs.set r v).get q = rs.get q := by
  cases r <;> cases q <;> first | rfl | exact absurd rfl h

theorem Regs.get_set (rs : Regs) (r q : Reg) (v : Byte) :
    (rs.set r v).get q = if q = r then v else rs.get q := by
  split
  · subst_vars; simp
  · exact Regs.get_set_other rs v ‹_›

theorem Regs.setPair_hi (rs : Regs) (p : StackPair) (w : Word) :
    (rs.setPair p w).get (pairHigh p) = hiByte w := by cases p <;> rfl

theorem Regs.setPair_lo (rs : Regs) (p : StackPair) (w : Word) :
    (rs.setPair p w).get (pairLow p) = loByte w := by cases p <;> rfl

theorem Regs.setPair_other (rs : Regs) (p : StackPair) (w : Word) {q : Reg}
    (h₁ : q ≠ pairHigh p) (h₂ : q ≠ pairLow p) : (rs.setPair p w).get q = rs.get q := by
  cases p <;> cases q <;> first | rfl | exact absurd rfl h₁ | exact absurd rfl h₂

end Sys2Proof.Machine
end

