-- ==== Sys2Proof/Laws/Decode.lean ====
section
/-! SUPPORT. One lemma per format for the decoder, and what the fetch at PC reads. -/

namespace Sys2Proof

theorem decode_f1 {op : Byte} {i : Instr} (h : decodeOpcode op = .f1 i) (rest : List Byte) :
    decode (op :: rest) = .ok (i, rest) := by
  simp only [decode, h]

theorem decode_f2 {op : Byte} {i : Byte → Instr} (h : decodeOpcode op = .f2 i) (v : Byte)
    (rest : List Byte) : decode (op :: v :: rest) = .ok (i v, rest) := by
  simp only [decode, h]

theorem decode_f3 {op : Byte} {i : Word → Instr} (h : decodeOpcode op = .f3 i) (lo hi : Byte)
    (rest : List Byte) : decode (op :: lo :: hi :: rest) = .ok (i (wordOf hi lo), rest) := by
  simp only [decode, h]

/-- Three bytes always hold an instruction. -/
theorem decode_three_ok (b₀ b₁ b₂ : Byte) (rest : List Byte) :
    ∃ i r, decode (b₀ :: b₁ :: b₂ :: rest) = .ok (i, r) := by
  rcases h : decodeOpcode b₀ with i | i | i
  · exact ⟨_, _, decode_f1 h _⟩
  · exact ⟨_, _, decode_f2 h _ _⟩
  · exact ⟨_, _, decode_f3 h _ _ _⟩

/-- A row of the opcode map stands at the opcode byte of its instructions, which are well-formed and
carry the operands the row reads. -/
def Row.At (op : Byte) : Row → Prop
  | .f1 i => i.opcode = op ∧ i.wf = true ∧ i.operands = []
  | .f2 i => ∀ v, (i v).opcode = op ∧ (i v).wf = true ∧ (i v).operands = [v]
  | .f3 i => ∀ w, (i w).opcode = op ∧ (i w).wf = true ∧ (i w).operands = [loByte w, hiByte w]

theorem decodeOpcode_at_fields (g : BitVec 2) (y z : BitVec 3) :
    Row.At (g ++ y ++ z) (decodeOpcode (g ++ y ++ z)) := by
  have h8 : ∀ x : BitVec 3,
      x = 0 ∨ x = 1 ∨ x = 2 ∨ x = 3 ∨ x = 4 ∨ x = 5 ∨ x = 6 ∨ x = 7 := by decide
  have h4 : ∀ x : BitVec 2, x = 0 ∨ x = 1 ∨ x = 2 ∨ x = 3 := by decide
  rcases h4 g with rfl | rfl | rfl | rfl <;>
    rcases h8 y with rfl | rfl | rfl | rfl | rfl | rfl | rfl | rfl <;>
      rcases h8 z with rfl | rfl | rfl | rfl | rfl | rfl | rfl | rfl <;>
        first
          | exact ⟨rfl, rfl, rfl⟩
          | (intro v; exact ⟨by simp only [Instr.opcode]; rfl, rfl, rfl⟩)

/-- Every byte has its row in the opcode map, and the row is that byte's (30_encoding R104, R105). -/
theorem decodeOpcode_at (op : Byte) : Row.At op (decodeOpcode op) := by
  have split : ∀ op : Byte, op = groupField op ++ dddField op ++ sssField op := by decide
  have h := decodeOpcode_at_fields (groupField op) (dddField op) (sssField op)
  rwa [← split op] at h

end Sys2Proof

namespace Sys2Proof.Machine

/-- The fetch at PC reads the instruction that the three bytes from PC decode to. -/
theorem State.fetchInstr_of_decode {s : State} {i : Instr} {r : List Byte}
    (h : decode [s.readByte s.pc, s.readByte (s.pc + 1), s.readByte (s.pc + 1 + 1)] = .ok (i, r)) :
    s.fetchInstr = i := by
  unfold State.fetchInstr
  simp only [State.fetch8, State.fetch16, State.jump_readByte, State.jump_pc]
  rcases hr : decodeOpcode (s.readByte s.pc) with j | j | j
  · rw [decode_f1 hr] at h
    exact congrArg Prod.fst (Except.ok.inj h)
  · rw [decode_f2 hr] at h
    exact congrArg Prod.fst (Except.ok.inj h)
  · rw [decode_f3 hr] at h
    exact congrArg Prod.fst (Except.ok.inj h)

/-- What the fetch reads is a well-formed instruction with the opcode byte at PC. -/
theorem State.fetchInstr_spec (s : State) :
    s.fetchInstr.opcode = s.readByte s.pc ∧ s.fetchInstr.wf = true := by
  have h := decodeOpcode_at (s.readByte s.pc)
  unfold State.fetchInstr
  simp only [State.fetch8]
  rcases hr : decodeOpcode (s.readByte s.pc) with j | j | j <;> rw [hr] at h
  · exact ⟨h.1, h.2.1⟩
  · exact ⟨(h _).1, (h _).2.1⟩
  · exact ⟨(h _).1, (h _).2.1⟩

theorem step_halted {s : State} (h : s.halted = true) : step s = .next s := by
  simp [step, h]

theorem step_running {s : State} (h : s.halted = false) : step s = exec s.fetchInstr s := by
  simp [step, h]

end Sys2Proof.Machine
end

