-- ==== Sys2Proof/Laws/Flags.lean ====
section
/-! SUPPORT. What each flag computation and each 8-bit operation gives, said once in the terms of
Safety.lean. -/

namespace Sys2Proof.Machine

/-! ## Sign, zero and parity -/

theorem parityEven_iff : ∀ v : Byte, parityEven v = true ↔ oneBits v % 2 = 0 := by decide

theorem signBit_iff : ∀ v : Byte, v.getLsbD 7 = true ↔ 128 ≤ v.toNat := by decide

/-- SetZSP gives Z, S and P of its byte (10_state R40). -/
theorem Flags.setZSP_zspOf (f : Flags) (v : Byte) : (f.setZSP v).ZspOf v := by
  refine ⟨?_, signBit_iff v, parityEven_iff v⟩
  simp only [Flags.setZSP, beq_iff_eq]
  exact ⟨fun h => by rw [h]; rfl, fun h => BitVec.eq_of_toNat_eq h⟩

/-! ## The flags byte -/

/-- The weights of the flags byte (10_state R26). -/
theorem Flags.toByte_toNat (f : Flags) :
    f.toByte.toNat = 128 * f.s.toNat + 64 * f.z.toNat + 16 * f.ac.toNat + 4 * f.p.toNat + 2
      + f.cy.toNat := by
  have h : ∀ z s p cy ac, (Flags.toByte ⟨z, s, p, cy, ac⟩).toNat =
      128 * s.toNat + 64 * z.toNat + 16 * ac.toNat + 4 * p.toNat + 2 + cy.toNat := by decide
  exact h _ _ _ _ _

/-- Reading back the flags byte gives the flags (10_state R27). -/
@[simp] theorem Flags.ofByte_toByte (f : Flags) : Flags.ofByte f.toByte = f := by
  have h : ∀ z s p cy ac, Flags.ofByte (Flags.toByte ⟨z, s, p, cy, ac⟩) = ⟨z, s, p, cy, ac⟩ := by
    decide
  exact h _ _ _ _ _

/-- A byte written to the flags reads back with bits 5 and 3 clear and bit 1 set (10_state R27). -/
theorem Flags.toByte_ofByte : ∀ v : Byte, (Flags.ofByte v).toByte = (v &&& 0xD5) ||| 0x02 := by
  decide

/-! ## Addition and subtraction -/

/-- Add8 of 41_arithmetic R177. -/
theorem add8_gives (a b : Byte) (cin : Bool) (f : Flags) :
    Add8Gives a b cin (add8 a b cin f).1 (add8 a b cin f).2 :=
  ⟨by simp [add8], by simp [add8], by simp [add8], f.setZSP_zspOf _⟩

/-- Sub8 of 41_arithmetic R178. -/
theorem sub8_gives (acsub : AcSub) (a b : Byte) (bin : Bool) (f : Flags) :
    Sub8Gives acsub a b bin (sub8 acsub a b bin f).1 (sub8 acsub a b bin f).2 := by
  refine ⟨?_, ?_, by simp [sub8], f.setZSP_zspOf _⟩
  · simp only [sub8, BitVec.toNat_ofInt]; omega
  · constructor <;> intro h <;> simp [sub8, h, acOfBorrow]

/-- Without a borrow in, Z after Sub8 says that the operands are equal. -/
theorem sub8_z_iff (acsub : AcSub) (a b : Byte) (f : Flags) :
    (sub8 acsub a b false f).2.z = true ↔ a = b := by
  have h := (sub8_gives acsub a b false f)
  rw [h.2.2.2.1]
  have ha := a.isLt
  have hb := b.isLt
  have hr := h.1
  simp only [Bool.toNat_false] at hr
  constructor
  · intro hz; apply BitVec.eq_of_toNat_eq; omega
  · rintro rfl; omega

/-- What INR does to its byte and to CY and AC (41_arithmetic R170). -/
theorem inc8_gives (x : Byte) (f : Flags) :
    (inc8 x f).1.toNat = (x.toNat + 1) % 256 ∧ (inc8 x f).2.ZspOf (inc8 x f).1 ∧
      ((inc8 x f).2.ac = true ↔ x.toNat % 16 = 15) ∧ (inc8 x f).2.cy = f.cy := by
  refine ⟨by simp [inc8], f.setZSP_zspOf _, ?_, rfl⟩
  simp [inc8]; omega

/-- What DCR does to its byte and to CY and AC (41_arithmetic R172). -/
theorem dec8_gives (acsub : AcSub) (x : Byte) (f : Flags) :
    (dec8 acsub x f).1.toNat = (x.toNat + 255) % 256 ∧
      (dec8 acsub x f).2.ZspOf (dec8 acsub x f).1 ∧
      (dec8 acsub x f).2.AcFromBorrow acsub (x.toNat % 16 = 0) ∧ (dec8 acsub x f).2.cy = f.cy := by
  refine ⟨?_, f.setZSP_zspOf _, ?_, rfl⟩
  · simp only [dec8, BitVec.toNat_ofInt]; omega
  · constructor <;> intro h <;> simp [dec8, h, acOfBorrow]

/-! ## Rotates -/

theorem rlc8_toNat : ∀ (a : Byte) (f : Flags),
    (rlc8 a f).1.toNat = 2 * a.toNat % 256 + (a.getLsbD 7).toNat := by
  have h : ∀ a : Byte, ((a <<< 1) ||| bitAt (a.getLsbD 7) 0).toNat =
      2 * a.toNat % 256 + (a.getLsbD 7).toNat := by decide
  exact fun a _ => h a

theorem rrc8_toNat : ∀ (a : Byte) (f : Flags),
    (rrc8 a f).1.toNat = a.toNat / 2 + 128 * (a.getLsbD 0).toNat := by
  have h : ∀ a : Byte, ((a >>> 1) ||| bitAt (a.getLsbD 0) 7).toNat =
      a.toNat / 2 + 128 * (a.getLsbD 0).toNat := by decide
  exact fun a _ => h a

theorem ral8_toNat : ∀ (a : Byte) (f : Flags),
    (ral8 a f).1.toNat = 2 * a.toNat % 256 + f.cy.toNat := by
  have h : ∀ (c : Bool) (a : Byte), ((a <<< 1) ||| bitAt c 0).toNat =
      2 * a.toNat % 256 + c.toNat := by decide
  exact fun a f => h f.cy a

theorem rar8_toNat : ∀ (a : Byte) (f : Flags),
    (rar8 a f).1.toNat = a.toNat / 2 + 128 * f.cy.toNat := by
  have h : ∀ (c : Bool) (a : Byte), ((a >>> 1) ||| bitAt c 7).toNat =
      a.toNat / 2 + 128 * c.toNat := by decide
  exact fun a f => h f.cy a

end Sys2Proof.Machine
end

