-- ==== Sys2Proof/Laws/Memory.lean ====
section
/-! SUPPORT. The laws of memory: every operation keeps the canonical form, a read after a write gives
the value written and every other address reads as before, and in canonical form equal reads mean
equal memories. -/

namespace Sys2Proof.Machine

/-! ## Canonical form -/

theorem Memory.wfFrom_cons {lo k : Nat} {v : Byte} {rest : Memory} :
    Memory.wfFrom lo ((k, v) :: rest) = true ↔
      lo ≤ k ∧ k < 65536 ∧ v ≠ Memory.unlisted ∧ Memory.wfFrom (k + 1) rest = true := by
  simp [Memory.wfFrom, and_assoc]

theorem Memory.wfFrom_mono {lo lo' : Nat} {m : Memory} (h : lo' ≤ lo)
    (hm : Memory.wfFrom lo m = true) : Memory.wfFrom lo' m = true := by
  cases m with
  | nil => rfl
  | cons kv rest =>
    obtain ⟨k, v⟩ := kv
    rw [Memory.wfFrom_cons] at hm ⊢
    exact ⟨by omega, hm.2⟩

/-- Below its first possible address a canonical memory lists nothing. -/
theorem Memory.read_below {lo a : Nat} {m : Memory} (hm : Memory.wfFrom lo m = true) (h : a < lo) :
    Memory.read m a = Memory.unlisted := by
  cases m with
  | nil => rfl
  | cons kv rest =>
    obtain ⟨k, v⟩ := kv
    rw [Memory.wfFrom_cons] at hm
    simp only [Memory.read]
    rw [if_pos (by omega)]

theorem Memory.wfFrom_write {m : Memory} {lo a : Nat} {x : Byte} (hm : Memory.wfFrom lo m = true)
    (hlo : lo ≤ a) (ha : a < 65536) : Memory.wfFrom lo (Memory.write m a x) = true := by
  induction m generalizing lo with
  | nil =>
    simp only [Memory.write]
    split
    · rfl
    · exact Memory.wfFrom_cons.2 ⟨hlo, ha, ‹_›, rfl⟩
  | cons kv rest ih =>
    obtain ⟨k, v⟩ := kv
    obtain ⟨h1, h2, h3, h4⟩ := Memory.wfFrom_cons.1 hm
    simp only [Memory.write]
    split
    · split
      · exact hm
      · exact Memory.wfFrom_cons.2
          ⟨hlo, ha, ‹_›, Memory.wfFrom_cons.2 ⟨by omega, h2, h3, h4⟩⟩
    · split
      · split
        · exact Memory.wfFrom_mono (by omega) h4
        · exact Memory.wfFrom_cons.2 ⟨hlo, ha, ‹_›, by subst_vars; exact h4⟩
      · exact Memory.wfFrom_cons.2 ⟨h1, h2, h3, ih h4 (by omega)⟩

/-- A store keeps the canonical form. -/
theorem Memory.wf_write {m : Memory} {a : Nat} {x : Byte} (hm : Memory.wf m = true)
    (ha : a < 65536) : Memory.wf (Memory.write m a x) = true :=
  Memory.wfFrom_write hm (Nat.zero_le a) ha

/-- A load that fits keeps the canonical form. -/
theorem Memory.wf_load {m : Memory} {offset : Nat} {bytes : List Byte} (hm : Memory.wf m = true)
    (h : offset + bytes.length ≤ 65536) : Memory.wf (Memory.load m offset bytes) = true := by
  induction bytes generalizing m offset with
  | nil => exact hm
  | cons v rest ih =>
    simp only [List.length_cons] at h
    exact ih (Memory.wf_write hm (by omega)) (by omega)

theorem State.wf_writeByte {s : State} (h : Memory.wf s.mem = true) (a : Word) (v : Byte) :
    Memory.wf (s.writeByte a v).mem = true := Memory.wf_write h a.isLt

theorem State.wf_writeWord {s : State} (h : Memory.wf s.mem = true) (a w : Word) :
    Memory.wf (s.writeWord a w).mem = true := State.wf_writeByte (State.wf_writeByte h _ _) _ _

theorem State.wf_push {s : State} (h : Memory.wf s.mem = true) (w : Word) :
    Memory.wf (s.push w).mem = true := State.wf_writeWord (s := s.setSp _) h _ _

/-! ## Reads after writes -/

theorem Memory.read_write_same_from {m : Memory} {lo a : Nat} {x : Byte}
    (hm : Memory.wfFrom lo m = true) : Memory.read (Memory.write m a x) a = x := by
  induction m generalizing lo with
  | nil =>
    simp only [Memory.write]
    split
    · subst_vars; rfl
    · simp [Memory.read]
  | cons kv rest ih =>
    obtain ⟨k, v⟩ := kv
    obtain ⟨-, -, -, h4⟩ := Memory.wfFrom_cons.1 hm
    simp only [Memory.write]
    by_cases h1 : a < k
    · simp only [h1, if_true]
      split
      · subst_vars; simp [Memory.read, h1]
      · simp [Memory.read]
    · by_cases h2 : a = k
      · subst h2
        simp only [h1, if_false, if_true]
        split
        · subst_vars; exact Memory.read_below h4 (by omega)
        · simp [Memory.read]
      · simp only [h1, h2, if_false, Memory.read]
        exact ih h4

theorem Memory.read_write_other_from {m : Memory} {lo a b : Nat} {x : Byte}
    (hm : Memory.wfFrom lo m = true) (hb : b ≠ a) :
    Memory.read (Memory.write m a x) b = Memory.read m b := by
  induction m generalizing lo with
  | nil =>
    simp only [Memory.write]
    split
    · rfl
    · simp [Memory.read, hb]
  | cons kv rest ih =>
    obtain ⟨k, v⟩ := kv
    obtain ⟨-, -, -, h4⟩ := Memory.wfFrom_cons.1 hm
    simp only [Memory.write]
    by_cases h1 : a < k
    · simp only [h1, if_true]
      split
      · rfl
      · simp only [Memory.read, hb, if_false]
        by_cases h3 : b < a
        · simp [h3, show b < k by omega]
        · simp [h3]
    · by_cases h2 : a = k
      · subst h2
        simp only [h1, if_false, if_true]
        split
        · simp only [Memory.read, hb, if_false]
          split
          · exact Memory.read_below h4 (by omega)
          · rfl
        · simp [Memory.read, hb]
      · simp only [h1, h2, if_false, Memory.read]
        rw [ih h4]

/-- A read after a store to the same address gives the byte stored (20_memory R62). -/
theorem Memory.read_write_same {m : Memory} {a : Nat} {x : Byte} (hm : Memory.wf m = true) :
    Memory.read (Memory.write m a x) a = x := Memory.read_write_same_from hm

/-- A store changes no other address (20_memory R62). -/
theorem Memory.read_write_other {m : Memory} {a b : Nat} {x : Byte} (hm : Memory.wf m = true)
    (hb : b ≠ a) : Memory.read (Memory.write m a x) b = Memory.read m b :=
  Memory.read_write_other_from hm hb

theorem State.readByte_writeByte_same {s : State} (h : Memory.wf s.mem = true) (a : Word)
    (v : Byte) : (s.writeByte a v).readByte a = v := Memory.read_write_same h

theorem State.readByte_writeByte_other {s : State} (h : Memory.wf s.mem = true) {a b : Word}
    (v : Byte) (hb : b ≠ a) : (s.writeByte a v).readByte b = s.readByte b :=
  Memory.read_write_other h fun e => hb (BitVec.eq_of_toNat_eq e)

theorem Word.ne_succ (a : Word) : a ≠ a + 1 := by
  intro h
  have h0 : (1 : Word) = 0 := by simpa using congrArg (· - a) h.symm
  exact absurd h0 (by decide)

theorem State.readByte_writeWord_lo {s : State} (h : Memory.wf s.mem = true) (a w : Word) :
    (s.writeWord a w).readByte a = loByte w := by
  unfold State.writeWord
  rw [State.readByte_writeByte_other (State.wf_writeByte h _ _) _ (Word.ne_succ a)]
  exact State.readByte_writeByte_same h _ _

theorem State.readByte_writeWord_hi {s : State} (h : Memory.wf s.mem = true) (a w : Word) :
    (s.writeWord a w).readByte (a + 1) = hiByte w :=
  State.readByte_writeByte_same (State.wf_writeByte h _ _) _ _

theorem State.readByte_writeWord_other {s : State} (h : Memory.wf s.mem = true) {a b : Word}
    (w : Word) (h₁ : b ≠ a) (h₂ : b ≠ a + 1) : (s.writeWord a w).readByte b = s.readByte b := by
  unfold State.writeWord
  rw [State.readByte_writeByte_other (State.wf_writeByte h _ _) _ h₂,
    State.readByte_writeByte_other h _ h₁]

/-- A word read back at the address it was stored to, also across the top of memory
(20_memory R63 to R65). -/
theorem State.readWord_writeWord {s : State} (h : Memory.wf s.mem = true) (a w : Word) :
    (s.writeWord a w).readWord a = w := by
  unfold State.readWord
  rw [State.readByte_writeWord_lo h, State.readByte_writeWord_hi h, wordOf_hi_lo]

/-- Reading after a byte store, as one case split (20_memory R61, R62). -/
theorem State.readByte_writeByte {s : State} (h : Memory.wf s.mem = true) (a b : Word) (v : Byte) :
    (s.writeByte a v).readByte b = if b = a then v else s.readByte b := by
  split
  · subst_vars; exact State.readByte_writeByte_same h _ _
  · exact State.readByte_writeByte_other h _ ‹_›

/-- Reading after a word store, as one case split (20_memory R63 to R65). -/
theorem State.readByte_writeWord {s : State} (h : Memory.wf s.mem = true) (a b w : Word) :
    (s.writeWord a w).readByte b =
      if b = a + 1 then hiByte w else if b = a then loByte w else s.readByte b := by
  unfold State.writeWord
  rw [State.readByte_writeByte (State.wf_writeByte h _ _), State.readByte_writeByte h]

/-- Two states with the same memory read alike. -/
theorem State.readByte_congr {s t : State} (h : t.mem = s.mem) (a : Word) :
    t.readByte a = s.readByte a := by
  unfold State.readByte; rw [h]

theorem State.readWord_congr {s t : State} (h : t.mem = s.mem) (a : Word) :
    t.readWord a = s.readWord a := by
  unfold State.readWord; rw [State.readByte_congr h, State.readByte_congr h]

end Sys2Proof.Machine
end

