-- ==== Sys2Proof/Laws/Ops.lean ====
section
/-! SUPPORT. What each shared operation does, said once: the two ways of carrying out an instruction,
the undocumented bytes, the stack, the device boundary, the interrupt and Load. -/

namespace Sys2Proof.Machine

/-! ## Carrying out an instruction -/

/-- An instruction carried out unconditionally always completes, and this is its next state. -/
theorem execute_next (i : Instr) (s : State) (f : State → State) :
    execute i s f = .next ((f (s.past i)).retire i 0) := rfl

theorem executeIf_taken {k : Cond} {s : State} (h : s.flags.cond k = true) (i : Instr)
    (f : State → State) :
    executeIf i k s f = .next ((f (s.past i)).retire i s.params.takenExtra) := by
  simp [executeIf, h]

theorem executeIf_not_taken {k : Cond} {s : State} (h : s.flags.cond k = false) (i : Instr)
    (f : State → State) : executeIf i k s f = .next ((s.past i).retire i 0) := by
  simp [executeIf, h]

/-- A conditional CALL or RETURN always completes, in one of two ways. -/
theorem executeIf_cases (i : Instr) (k : Cond) (s : State) (f : State → State) :
    (s.flags.cond k = true ∧
      executeIf i k s f = .next ((f (s.past i)).retire i s.params.takenExtra)) ∨
    (s.flags.cond k = false ∧ executeIf i k s f = .next ((s.past i).retire i 0)) := by
  rcases h : s.flags.cond k
  · exact .inr ⟨rfl, executeIf_not_taken h i f⟩
  · exact .inl ⟨rfl, executeIf_taken h i f⟩

/-- A next state of a conditional CALL or RETURN is one of the two; every proof about one goes
through this case split. -/
theorem executeIf_elim {i : Instr} {k : Cond} {s t : State} {f : State → State} {P : Prop}
    (h : executeIf i k s f = .next t)
    (taken : s.flags.cond k = true → (f (s.past i)).retire i s.params.takenExtra = t → P)
    (notTaken : s.flags.cond k = false → (s.past i).retire i 0 = t → P) : P := by
  rcases executeIf_cases i k s f with ⟨q, e⟩ | ⟨q, e⟩ <;> rw [e] at h
  · exact taken q (by cases h; rfl)
  · exact notTaken q (by cases h; rfl)

theorem undocumented_fault {s : State} (h : s.params.undoc = .fault) (i : Instr) (r : Result) :
    undocumented i s r =
      .fault (.unimplementedInstruction i.opcode (s.jump (s.pc + 1))) := by
  simp [undocumented, h]

theorem undocumented_duplicate {s : State} (h : s.params.undoc = .duplicate) (i : Instr)
    (r : Result) : undocumented i s r = r := by
  simp [undocumented, h]

/-- An undocumented byte that answers a next state does so under `UNDOC` = duplicate. -/
theorem undocumented_next {i : Instr} {s t : State} {r : Result}
    (h : undocumented i s r = .next t) : s.params.undoc = .duplicate ∧ r = .next t := by
  unfold undocumented at h
  split at h
  · cases h
  · exact ⟨‹_›, h⟩

/-! ## Conditional jumps -/

theorem State.jumpIf_eq (s : State) (k : Cond) (addr : Word) :
    s.jumpIf k addr = s.jump (if s.flags.cond k then addr else s.pc) := by
  unfold State.jumpIf; split <;> rfl

@[simp] theorem State.jumpIf_regs (s : State) (k : Cond) (addr : Word) :
    (s.jumpIf k addr).regs = s.regs := by rw [State.jumpIf_eq]; rfl
@[simp] theorem State.jumpIf_sp (s : State) (k : Cond) (addr : Word) :
    (s.jumpIf k addr).sp = s.sp := by rw [State.jumpIf_eq]; rfl
@[simp] theorem State.jumpIf_flags (s : State) (k : Cond) (addr : Word) :
    (s.jumpIf k addr).flags = s.flags := by rw [State.jumpIf_eq]; rfl
@[simp] theorem State.jumpIf_halted (s : State) (k : Cond) (addr : Word) :
    (s.jumpIf k addr).halted = s.halted := by rw [State.jumpIf_eq]; rfl
@[simp] theorem State.jumpIf_inte (s : State) (k : Cond) (addr : Word) :
    (s.jumpIf k addr).inte = s.inte := by rw [State.jumpIf_eq]; rfl
@[simp] theorem State.jumpIf_cycles (s : State) (k : Cond) (addr : Word) :
    (s.jumpIf k addr).cycles = s.cycles := by rw [State.jumpIf_eq]; rfl
@[simp] theorem State.jumpIf_mem (s : State) (k : Cond) (addr : Word) :
    (s.jumpIf k addr).mem = s.mem := by rw [State.jumpIf_eq]; rfl
@[simp] theorem State.jumpIf_events (s : State) (k : Cond) (addr : Word) :
    (s.jumpIf k addr).events = s.events := by rw [State.jumpIf_eq]; rfl
@[simp] theorem State.jumpIf_devInputs (s : State) (k : Cond) (addr : Word) :
    (s.jumpIf k addr).devInputs = s.devInputs := by rw [State.jumpIf_eq]; rfl
@[simp] theorem State.jumpIf_devDraws (s : State) (k : Cond) (addr : Word) :
    (s.jumpIf k addr).devDraws = s.devDraws := by rw [State.jumpIf_eq]; rfl
@[simp] theorem State.jumpIf_params (s : State) (k : Cond) (addr : Word) :
    (s.jumpIf k addr).params = s.params := by rw [State.jumpIf_eq]; rfl
@[simp] theorem State.jumpIf_pc (s : State) (k : Cond) (addr : Word) :
    (s.jumpIf k addr).pc = if s.flags.cond k then addr else s.pc := by rw [State.jumpIf_eq]; rfl
@[simp] theorem State.jumpIf_readByte (s : State) (k : Cond) (addr y : Word) :
    (s.jumpIf k addr).readByte y = s.readByte y := by rw [State.jumpIf_eq]; rfl

/-! ## Stack -/

theorem State.push_lo {s : State} (h : Memory.wf s.mem = true) (w : Word) :
    (s.push w).readByte (s.sp - 2) = loByte w :=
  State.readByte_writeWord_lo (s := s.setSp _) h _ _

theorem State.push_hi {s : State} (h : Memory.wf s.mem = true) (w : Word) :
    (s.push w).readByte (s.sp - 2 + 1) = hiByte w :=
  State.readByte_writeWord_hi (s := s.setSp _) h _ _

theorem State.push_other {s : State} (h : Memory.wf s.mem = true) {a : Word} (w : Word)
    (h₁ : a ≠ s.sp - 2) (h₂ : a ≠ s.sp - 2 + 1) : (s.push w).readByte a = s.readByte a :=
  State.readByte_writeWord_other (s := s.setSp _) h w h₁ h₂

/-! ## Device boundary -/

/-- Where the device has a byte ready, that byte is read and is ready no longer. -/
theorem State.devIn_ready {s : State} {v : Byte} {rest : List Byte}
    (h : s.devInputs = v :: rest) (p : Byte) :
    (s.devIn p).1 = v ∧ (s.devIn p).2.devInputs = rest ∧ (s.devIn p).2.devDraws = s.devDraws := by
  unfold State.devIn; rw [h]; exact ⟨rfl, rfl, rfl⟩

/-- Where none is ready the byte is a free value, a new one for each draw. -/
theorem State.devIn_free {s : State} (h : s.devInputs = []) (p : Byte) :
    (s.devIn p).1 = Config.devIn s.devDraws p ∧ (s.devIn p).2.devInputs = [] ∧
      (s.devIn p).2.devDraws = s.devDraws + 1 := by
  unfold State.devIn; simp [h]

/-! ## Interrupt and Load -/

theorem State.interrupt_ignored {s : State} (h : s.inte = false) (target : Word) :
    s.interrupt target = s := by
  simp [State.interrupt, h]

theorem State.interrupt_accepted {s : State} (h : s.inte = true) (target : Word) :
    s.interrupt target =
      { ((s.setInte false).push s.pc).jump target with cycles := s.cycles + s.params.intCost } := by
  simp [State.interrupt, h]

/-- Memory after an accepted request reads as after pushing PC. -/
theorem State.interrupt_readByte {s : State} (h : s.inte = true) (target a : Word) :
    (s.interrupt target).readByte a = (s.push s.pc).readByte a := by
  rw [State.interrupt_accepted h]; rfl

/-- Load answers a next state exactly where the image fits. -/
theorem State.hostLoad_next {s t : State} {bytes : List Byte} {offset : Nat} :
    s.hostLoad bytes offset = .next t ↔
      offset + bytes.length ≤ 65536 ∧ t = { s with mem := Memory.load s.mem offset bytes } := by
  unfold State.hostLoad
  split
  · constructor
    · intro h; cases h
    · intro h; omega
  · constructor
    · intro h; cases h; exact ⟨by omega, rfl⟩
    · rintro ⟨-, rfl⟩; rfl

end Sys2Proof.Machine
end

