-- ==== Sys2Proof/Laws/PerInstr.lean ====
section
/-! SUPPORT. Per-instruction lemmas about the instruction as syntax. Family OpcodeLength: the opcode
byte alone determines the length (30_encoding R90, R103). -/

namespace Sys2Proof.Laws

/-- The row of the opcode map at the instruction's opcode byte has the instruction's length. -/
def OpcodeLength.Statement (i : Instr) : Prop := (decodeOpcode i.opcode).length = i.length

theorem OpcodeLength.movRR (dst : Reg) (src : Reg) : OpcodeLength.Statement (.movRR dst src) := by
  cases dst <;> cases src <;> exact rfl

theorem OpcodeLength.movRM (dst : Reg) : OpcodeLength.Statement (.movRM dst) := by
  cases dst <;> exact rfl

theorem OpcodeLength.movMR (src : Reg) : OpcodeLength.Statement (.movMR src) := by
  cases src <;> exact rfl

theorem OpcodeLength.mviR (dst : Reg) (v : Byte) : OpcodeLength.Statement (.mviR dst v) := by
  simp only [OpcodeLength.Statement, Instr.opcode]; cases dst <;> rfl

theorem OpcodeLength.mviM (v : Byte) : OpcodeLength.Statement (.mviM v) := by
  simp only [OpcodeLength.Statement, Instr.opcode]; rfl

theorem OpcodeLength.lxi (p : Pair) (w : Word) : OpcodeLength.Statement (.lxi p w) := by
  simp only [OpcodeLength.Statement, Instr.opcode]; cases p <;> rfl

theorem OpcodeLength.stax (p : IndexPair) : OpcodeLength.Statement (.stax p) := by
  cases p <;> exact rfl

theorem OpcodeLength.ldax (p : IndexPair) : OpcodeLength.Statement (.ldax p) := by
  cases p <;> exact rfl

theorem OpcodeLength.sta (addr : Word) : OpcodeLength.Statement (.sta addr) := by
  simp only [OpcodeLength.Statement, Instr.opcode]; rfl

theorem OpcodeLength.lda (addr : Word) : OpcodeLength.Statement (.lda addr) := by
  simp only [OpcodeLength.Statement, Instr.opcode]; rfl

theorem OpcodeLength.shld (addr : Word) : OpcodeLength.Statement (.shld addr) := by
  simp only [OpcodeLength.Statement, Instr.opcode]; rfl

theorem OpcodeLength.lhld (addr : Word) : OpcodeLength.Statement (.lhld addr) := by
  simp only [OpcodeLength.Statement, Instr.opcode]; rfl

theorem OpcodeLength.xchg : OpcodeLength.Statement .xchg := rfl

theorem OpcodeLength.xthl : OpcodeLength.Statement .xthl := rfl

theorem OpcodeLength.sphl : OpcodeLength.Statement .sphl := rfl

theorem OpcodeLength.add (o : Operand) : OpcodeLength.Statement (.add o) := by
  rcases o with r | _ <;> first | exact rfl | (cases r <;> exact rfl)

theorem OpcodeLength.adi (v : Byte) : OpcodeLength.Statement (.adi v) := by
  simp only [OpcodeLength.Statement, Instr.opcode]; rfl

theorem OpcodeLength.adc (o : Operand) : OpcodeLength.Statement (.adc o) := by
  rcases o with r | _ <;> first | exact rfl | (cases r <;> exact rfl)

theorem OpcodeLength.aci (v : Byte) : OpcodeLength.Statement (.aci v) := by
  simp only [OpcodeLength.Statement, Instr.opcode]; rfl

theorem OpcodeLength.sub (o : Operand) : OpcodeLength.Statement (.sub o) := by
  rcases o with r | _ <;> first | exact rfl | (cases r <;> exact rfl)

theorem OpcodeLength.sui (v : Byte) : OpcodeLength.Statement (.sui v) := by
  simp only [OpcodeLength.Statement, Instr.opcode]; rfl

theorem OpcodeLength.sbb (o : Operand) : OpcodeLength.Statement (.sbb o) := by
  rcases o with r | _ <;> first | exact rfl | (cases r <;> exact rfl)

theorem OpcodeLength.sbi (v : Byte) : OpcodeLength.Statement (.sbi v) := by
  simp only [OpcodeLength.Statement, Instr.opcode]; rfl

theorem OpcodeLength.cmp (o : Operand) : OpcodeLength.Statement (.cmp o) := by
  rcases o with r | _ <;> first | exact rfl | (cases r <;> exact rfl)

theorem OpcodeLength.cpi (v : Byte) : OpcodeLength.Statement (.cpi v) := by
  simp only [OpcodeLength.Statement, Instr.opcode]; rfl

theorem OpcodeLength.inrR (r : Reg) : OpcodeLength.Statement (.inrR r) := by
  cases r <;> exact rfl

theorem OpcodeLength.inrM : OpcodeLength.Statement .inrM := rfl

theorem OpcodeLength.dcrR (r : Reg) : OpcodeLength.Statement (.dcrR r) := by
  cases r <;> exact rfl

theorem OpcodeLength.dcrM : OpcodeLength.Statement .dcrM := rfl

theorem OpcodeLength.inx (p : Pair) : OpcodeLength.Statement (.inx p) := by
  cases p <;> exact rfl

theorem OpcodeLength.dcx (p : Pair) : OpcodeLength.Statement (.dcx p) := by
  cases p <;> exact rfl

theorem OpcodeLength.dad (p : Pair) : OpcodeLength.Statement (.dad p) := by
  cases p <;> exact rfl

theorem OpcodeLength.daa : OpcodeLength.Statement .daa := rfl

theorem OpcodeLength.ana (o : Operand) : OpcodeLength.Statement (.ana o) := by
  rcases o with r | _ <;> first | exact rfl | (cases r <;> exact rfl)

theorem OpcodeLength.ani (v : Byte) : OpcodeLength.Statement (.ani v) := by
  simp only [OpcodeLength.Statement, Instr.opcode]; rfl

theorem OpcodeLength.xra (o : Operand) : OpcodeLength.Statement (.xra o) := by
  rcases o with r | _ <;> first | exact rfl | (cases r <;> exact rfl)

theorem OpcodeLength.xri (v : Byte) : OpcodeLength.Statement (.xri v) := by
  simp only [OpcodeLength.Statement, Instr.opcode]; rfl

theorem OpcodeLength.ora (o : Operand) : OpcodeLength.Statement (.ora o) := by
  rcases o with r | _ <;> first | exact rfl | (cases r <;> exact rfl)

theorem OpcodeLength.ori (v : Byte) : OpcodeLength.Statement (.ori v) := by
  simp only [OpcodeLength.Statement, Instr.opcode]; rfl

theorem OpcodeLength.rlc : OpcodeLength.Statement .rlc := rfl

theorem OpcodeLength.rrc : OpcodeLength.Statement .rrc := rfl

theorem OpcodeLength.ral : OpcodeLength.Statement .ral := rfl

theorem OpcodeLength.rar : OpcodeLength.Statement .rar := rfl

theorem OpcodeLength.cma : OpcodeLength.Statement .cma := rfl

theorem OpcodeLength.stc : OpcodeLength.Statement .stc := rfl

theorem OpcodeLength.cmc : OpcodeLength.Statement .cmc := rfl

theorem OpcodeLength.jmp (addr : Word) : OpcodeLength.Statement (.jmp addr) := by
  simp only [OpcodeLength.Statement, Instr.opcode]; rfl

theorem OpcodeLength.jnz (addr : Word) : OpcodeLength.Statement (.jnz addr) := by
  simp only [OpcodeLength.Statement, Instr.opcode]; rfl

theorem OpcodeLength.jz (addr : Word) : OpcodeLength.Statement (.jz addr) := by
  simp only [OpcodeLength.Statement, Instr.opcode]; rfl

theorem OpcodeLength.jnc (addr : Word) : OpcodeLength.Statement (.jnc addr) := by
  simp only [OpcodeLength.Statement, Instr.opcode]; rfl

theorem OpcodeLength.jc (addr : Word) : OpcodeLength.Statement (.jc addr) := by
  simp only [OpcodeLength.Statement, Instr.opcode]; rfl

theorem OpcodeLength.jpo (addr : Word) : OpcodeLength.Statement (.jpo addr) := by
  simp only [OpcodeLength.Statement, Instr.opcode]; rfl

theorem OpcodeLength.jpe (addr : Word) : OpcodeLength.Statement (.jpe addr) := by
  simp only [OpcodeLength.Statement, Instr.opcode]; rfl

theorem OpcodeLength.jp (addr : Word) : OpcodeLength.Statement (.jp addr) := by
  simp only [OpcodeLength.Statement, Instr.opcode]; rfl

theorem OpcodeLength.jm (addr : Word) : OpcodeLength.Statement (.jm addr) := by
  simp only [OpcodeLength.Statement, Instr.opcode]; rfl

theorem OpcodeLength.call (addr : Word) : OpcodeLength.Statement (.call addr) := by
  simp only [OpcodeLength.Statement, Instr.opcode]; rfl

theorem OpcodeLength.cnz (addr : Word) : OpcodeLength.Statement (.cnz addr) := by
  simp only [OpcodeLength.Statement, Instr.opcode]; rfl

theorem OpcodeLength.cz (addr : Word) : OpcodeLength.Statement (.cz addr) := by
  simp only [OpcodeLength.Statement, Instr.opcode]; rfl

theorem OpcodeLength.cnc (addr : Word) : OpcodeLength.Statement (.cnc addr) := by
  simp only [OpcodeLength.Statement, Instr.opcode]; rfl

theorem OpcodeLength.cc (addr : Word) : OpcodeLength.Statement (.cc addr) := by
  simp only [OpcodeLength.Statement, Instr.opcode]; rfl

theorem OpcodeLength.cpo (addr : Word) : OpcodeLength.Statement (.cpo addr) := by
  simp only [OpcodeLength.Statement, Instr.opcode]; rfl

theorem OpcodeLength.cpe (addr : Word) : OpcodeLength.Statement (.cpe addr) := by
  simp only [OpcodeLength.Statement, Instr.opcode]; rfl

theorem OpcodeLength.cp (addr : Word) : OpcodeLength.Statement (.cp addr) := by
  simp only [OpcodeLength.Statement, Instr.opcode]; rfl

theorem OpcodeLength.cm (addr : Word) : OpcodeLength.Statement (.cm addr) := by
  simp only [OpcodeLength.Statement, Instr.opcode]; rfl

theorem OpcodeLength.ret : OpcodeLength.Statement .ret := rfl

theorem OpcodeLength.rnz : OpcodeLength.Statement .rnz := rfl

theorem OpcodeLength.rz : OpcodeLength.Statement .rz := rfl

theorem OpcodeLength.rnc : OpcodeLength.Statement .rnc := rfl

theorem OpcodeLength.rc : OpcodeLength.Statement .rc := rfl

theorem OpcodeLength.rpo : OpcodeLength.Statement .rpo := rfl

theorem OpcodeLength.rpe : OpcodeLength.Statement .rpe := rfl

theorem OpcodeLength.rp : OpcodeLength.Statement .rp := rfl

theorem OpcodeLength.rm : OpcodeLength.Statement .rm := rfl

theorem OpcodeLength.rst (n : BitVec 3) : OpcodeLength.Statement (.rst n) := by
  have h : ∀ n : BitVec 3, (decodeOpcode (Instr.rst n).opcode).length = 1 := by decide
  exact h n

theorem OpcodeLength.pchl : OpcodeLength.Statement .pchl := rfl

theorem OpcodeLength.push (p : StackPair) : OpcodeLength.Statement (.push p) := by
  cases p <;> exact rfl

theorem OpcodeLength.pushPsw : OpcodeLength.Statement .pushPsw := rfl

theorem OpcodeLength.pop (p : StackPair) : OpcodeLength.Statement (.pop p) := by
  cases p <;> exact rfl

theorem OpcodeLength.popPsw : OpcodeLength.Statement .popPsw := rfl

theorem OpcodeLength.inp (port : Byte) : OpcodeLength.Statement (.inp port) := by
  simp only [OpcodeLength.Statement, Instr.opcode]; rfl

theorem OpcodeLength.outp (port : Byte) : OpcodeLength.Statement (.outp port) := by
  simp only [OpcodeLength.Statement, Instr.opcode]; rfl

theorem OpcodeLength.ei : OpcodeLength.Statement .ei := rfl

theorem OpcodeLength.di : OpcodeLength.Statement .di := rfl

theorem OpcodeLength.hlt : OpcodeLength.Statement .hlt := rfl

theorem OpcodeLength.nop : OpcodeLength.Statement .nop := rfl

theorem OpcodeLength.undocNop (n : BitVec 3) : OpcodeLength.Statement (.undocNop n) := by
  have h : ∀ n : BitVec 3, (decodeOpcode (Instr.undocNop n).opcode).length = 1 := by decide
  exact h n

theorem OpcodeLength.undocJmp (addr : Word) : OpcodeLength.Statement (.undocJmp addr) := by
  simp only [OpcodeLength.Statement, Instr.opcode]; rfl

theorem OpcodeLength.undocRet : OpcodeLength.Statement .undocRet := rfl

theorem OpcodeLength.undocCall (n : BitVec 2) (addr : Word) : OpcodeLength.Statement (.undocCall n addr) := by
  have h : ∀ n : BitVec 2, (decodeOpcode (Instr.undocCall n addr).opcode).length = 3 := by
    intro n
    have h : ∀ n : BitVec 2, (decodeOpcode (0b11#2 ++ n ++ 0b1101#4)).length = 3 := by decide
    exact h n
  exact h n

end Sys2Proof.Laws
end

