-- ==== Sys2Proof/Tests/Slice0.lean ====
section
/-! SUPPORT. The model's own tests: ill-formed terms refused, words written out bit by bit from the
spec's encodings, single steps with the results of 95_test_vectors, and one witness for each
statement that has hypotheses. Expected values come from spec/95_test_vectors.md unless said. -/

namespace Sys2Proof.Tests

open Sys2Proof.Machine

/-! ## Helpers -/

/-- The launch state of 95_test_vectors section 2: the bytes at 0100, PC there. -/
def code (bytes : List Byte) : State := (State.reset.jump 0x0100).placeBytes 0x0100 bytes

/-- The same with PC and the bytes at another address. -/
def codeAt (pc : Word) (bytes : List Byte) : State := (State.reset.jump pc).placeBytes pc bytes

/-- The state under ACSUB = not_borrow. -/
def notBorrow (s : State) : State := { s with params := { s.params with acsub := .notBorrow } }

/-- The state under UNDOC = alias. -/
def undocRuns (s : State) : State := { s with params := { s.params with undoc := .duplicate } }

/-- One step answers a next state that passes the check, and reports the cycles. -/
def gives (s : State) (cycles : Nat) (ok : State → Bool) : Bool :=
  match step s with
  | .next t => ok t && reportedCycles s t == cycles
  | .fault _ => false
  | .refused _ => false

/-- The bytes decode to the instruction, with nothing left over. -/
def reads (bytes : List Byte) (i : Instr) : Bool :=
  match decode bytes with
  | .ok (j, rest) => j == i && rest == []
  | .error _ => false

/-- A row of the ALU tables: A, B, CY in; A, Z, S, P, CY, AC out; cycles. -/
def alu (bytes : List Byte) (a b : Byte) (cy : Bool) (r : Byte) (f : Flags) (cycles : Nat) : Bool :=
  gives ((((code bytes).setReg .a a).setReg .b b).setFlags ⟨false, false, false, cy, false⟩) cycles
    fun t => t.regs.a == r && t.flags == f

/-- The same row under ACSUB = not_borrow. -/
def aluNb (bytes : List Byte) (a b : Byte) (cy : Bool) (r : Byte) (f : Flags) : Bool :=
  gives (notBorrow ((((code bytes).setReg .a a).setReg .b b).setFlags
      ⟨false, false, false, cy, false⟩)) (State.reset.params.cycOf (bytes.headD 0))
    fun t => t.regs.a == r && t.flags == f

/-! ## WellFormed refuses ill-formed terms and takes well-formed ones -/

/-- 00 is NOP, not a duplicate of it (30_encoding R105). -/
theorem test_wf_refuses_undocNop_0 :
    (Instr.undocNop 0).wf = false := by decide

/-- CD is CALL, not a duplicate of it (30_encoding R105). -/
theorem test_wf_refuses_undocCall_0 :
    (Instr.undocCall 0 0x1234).wf = false := by decide

theorem test_wf_takes_undocNop :
    ∀ n : BitVec 3, n ≠ 0 → (Instr.undocNop n).wf = true := by decide

theorem test_wf_takes_undocCall :
    ∀ n : BitVec 2, n ≠ 0 → (Instr.undocCall n 0x1234).wf = true := by decide


/-! ## Every constructor read from a word written out bit by bit (30_encoding R91, R92, R95 to R98, R104, R105) -/

theorem test_decode_data_transfer :
    (reads [0b01000001] (.movRR .b .c)
      && reads [0b01011110] (.movRM .e)
      && reads [0b01110100] (.movMR .h)
      && reads [0b00111110, 0x05] (.mviR .a 0x05)
      && reads [0b00110110, 0x3C] (.mviM 0x3C)
      && reads [0b00010001, 0x34, 0x12] (.lxi .de 0x1234)
      && reads [0b00110001, 0xFE, 0xFF] (.lxi .sp 0xFFFE)
      && reads [0b00000010] (.stax .bc)
      && reads [0b00010010] (.stax .de)
      && reads [0b00001010] (.ldax .bc)
      && reads [0b00011010] (.ldax .de)
      && reads [0b00110010, 0x34, 0x12] (.sta 0x1234)
      && reads [0b00111010, 0x34, 0x12] (.lda 0x1234)
      && reads [0b00100010, 0x34, 0x12] (.shld 0x1234)
      && reads [0b00101010, 0x34, 0x12] (.lhld 0x1234)
      && reads [0b11101011] (.xchg)
      && reads [0b11100011] (.xthl)
      && reads [0b11111001] (.sphl)) = true := by decide

theorem test_decode_arithmetic :
    (reads [0b10000000] (.add (.reg .b))
      && reads [0b10000110] (.add .m)
      && reads [0b11000110, 0x03] (.adi 0x03)
      && reads [0b10001111] (.adc (.reg .a))
      && reads [0b11001110, 0xFF] (.aci 0xFF)
      && reads [0b10010101] (.sub (.reg .l))
      && reads [0b11010110, 0x01] (.sui 0x01)
      && reads [0b10011010] (.sbb (.reg .d))
      && reads [0b11011110, 0x01] (.sbi 0x01)
      && reads [0b10111110] (.cmp .m)
      && reads [0b11111110, 0x40] (.cpi 0x40)
      && reads [0b00111100] (.inrR .a)
      && reads [0b00110100] (.inrM)
      && reads [0b00001101] (.dcrR .c)
      && reads [0b00110101] (.dcrM)
      && reads [0b00110011] (.inx .sp)
      && reads [0b00101011] (.dcx .hl)
      && reads [0b00011001] (.dad .de)
      && reads [0b00100111] (.daa)) = true := by decide

theorem test_decode_logical :
    (reads [0b10100011] (.ana (.reg .e))
      && reads [0b11100110, 0x0F] (.ani 0x0F)
      && reads [0b10101100] (.xra (.reg .h))
      && reads [0b11101110, 0x81] (.xri 0x81)
      && reads [0b10110110] (.ora .m)
      && reads [0b11110110, 0x0F] (.ori 0x0F)
      && reads [0b00000111] (.rlc)
      && reads [0b00001111] (.rrc)
      && reads [0b00010111] (.ral)
      && reads [0b00011111] (.rar)
      && reads [0b00101111] (.cma)
      && reads [0b00110111] (.stc)
      && reads [0b00111111] (.cmc)) = true := by decide

theorem test_decode_jump_and_call :
    (reads [0b11000011, 0x34, 0x12] (.jmp 0x1234)
      && reads [0b11000010, 0x34, 0x12] (.jnz 0x1234)
      && reads [0b11001010, 0x34, 0x12] (.jz 0x1234)
      && reads [0b11010010, 0x34, 0x12] (.jnc 0x1234)
      && reads [0b11011010, 0x34, 0x12] (.jc 0x1234)
      && reads [0b11100010, 0x34, 0x12] (.jpo 0x1234)
      && reads [0b11101010, 0x34, 0x12] (.jpe 0x1234)
      && reads [0b11110010, 0x34, 0x12] (.jp 0x1234)
      && reads [0b11111010, 0x34, 0x12] (.jm 0x1234)
      && reads [0b11001101, 0x34, 0x12] (.call 0x1234)
      && reads [0b11000100, 0x34, 0x12] (.cnz 0x1234)
      && reads [0b11001100, 0x34, 0x12] (.cz 0x1234)
      && reads [0b11010100, 0x34, 0x12] (.cnc 0x1234)
      && reads [0b11011100, 0x34, 0x12] (.cc 0x1234)
      && reads [0b11100100, 0x34, 0x12] (.cpo 0x1234)
      && reads [0b11101100, 0x34, 0x12] (.cpe 0x1234)
      && reads [0b11110100, 0x34, 0x12] (.cp 0x1234)
      && reads [0b11111100, 0x34, 0x12] (.cm 0x1234)) = true := by decide

theorem test_decode_return_restart_pchl :
    (reads [0b11001001] (.ret)
      && reads [0b11000000] (.rnz)
      && reads [0b11001000] (.rz)
      && reads [0b11010000] (.rnc)
      && reads [0b11011000] (.rc)
      && reads [0b11100000] (.rpo)
      && reads [0b11101000] (.rpe)
      && reads [0b11110000] (.rp)
      && reads [0b11111000] (.rm)
      && reads [0b11000111] (.rst 0)
      && reads [0b11101111] (.rst 5)
      && reads [0b11101001] (.pchl)) = true := by decide

theorem test_decode_stack_io_control :
    (reads [0b11000101] (.push .bc)
      && reads [0b11010101] (.push .de)
      && reads [0b11100101] (.push .hl)
      && reads [0b11110101] (.pushPsw)
      && reads [0b11000001] (.pop .bc)
      && reads [0b11010001] (.pop .de)
      && reads [0b11100001] (.pop .hl)
      && reads [0b11110001] (.popPsw)
      && reads [0b11011011, 0x01] (.inp 0x01)
      && reads [0b11010011, 0x02] (.outp 0x02)
      && reads [0b11111011] (.ei)
      && reads [0b11110011] (.di)
      && reads [0b01110110] (.hlt)
      && reads [0b00000000] (.nop)) = true := by decide

theorem test_decode_undocumented :
    (reads [0b00001000] (.undocNop 1)
      && reads [0b00010000] (.undocNop 2)
      && reads [0b00011000] (.undocNop 3)
      && reads [0b00100000] (.undocNop 4)
      && reads [0b00101000] (.undocNop 5)
      && reads [0b00110000] (.undocNop 6)
      && reads [0b00111000] (.undocNop 7)
      && reads [0b11001011, 0x34, 0x12] (.undocJmp 0x1234)
      && reads [0b11011001] (.undocRet)
      && reads [0b11011101, 0x34, 0x12] (.undocCall 1 0x1234)
      && reads [0b11101101, 0x34, 0x12] (.undocCall 2 0x1234)
      && reads [0b11111101, 0x34, 0x12] (.undocCall 3 0x1234)) = true := by decide

/-- Two bytes of a three-byte instruction hold no instruction, and the error names the opcode byte. -/
theorem test_decode_rejects_short :
    (match decode [0xC3, 0x00] with
      | .error e => e == .truncated 0xC3
      | .ok _ => false) = true := by decide

/-- Later bytes count on from the first; bits above nbits are 0. -/
theorem test_table_word :
    decodeTableWord 24 0x1234C3 = some (.jmp 0x1234) ∧ decodeTableWord 8 0xC3 = some (.jmp 0) := by decide


/-! ## Data transfer (95_test_vectors 2.1) -/

theorem test_mov_b_c :
    gives (((code [0x41]).setReg .c 0x7E).setFlags ⟨true, true, true, true, true⟩) 5 (fun t =>
      t.regs.b == 0x7E && t.regs.c == 0x7E && t.pc == 0x0101 && t.flags == ⟨true, true, true, true, true⟩) = true := by decide

theorem test_mov_e_m :
    gives ((((code [0x5E]).setReg .h 0x12).setReg .l 0x34).placeBytes 0x1234 [0xA5]) 7 (fun t =>
      t.regs.e == 0xA5) = true := by decide

/-- The address is formed before H is written (40_data_transfer R131). -/
theorem test_mov_h_m_uses_old_hl :
    gives ((((code [0x66]).setReg .h 0x12).setReg .l 0x34).placeBytes 0x1234 [0xA5]) 7 (fun t =>
      t.regs.h == 0xA5 && t.regs.l == 0x34) = true := by decide

theorem test_mov_m_a :
    gives ((((code [0x77]).setReg .h 0xFF).setReg .l 0xFF).setReg .a 0x5A) 7 (fun t =>
      t.readByte 0xFFFF == 0x5A) = true := by decide

theorem test_mov_m_h :
    gives (((code [0x74]).setReg .h 0x20).setReg .l 0x10) 7 (fun t =>
      t.readByte 0x2010 == 0x20) = true := by decide

theorem test_mvi_l :
    gives (code [0x2E, 0xFF]) 7 (fun t =>
      t.regs.l == 0xFF && t.pc == 0x0102) = true := by decide

theorem test_mvi_m :
    gives (((code [0x36, 0x3C]).setReg .h 0x20).setReg .l 0x00) 10 (fun t =>
      t.readByte 0x2000 == 0x3C && t.pc == 0x0102) = true := by decide

theorem test_lxi_b :
    gives (code [0x01, 0x34, 0x12]) 10 (fun t =>
      t.regs.b == 0x12 && t.regs.c == 0x34 && t.pc == 0x0103) = true := by decide

theorem test_lxi_sp :
    gives (code [0x31, 0xFE, 0xFF]) 10 (fun t =>
      t.sp == 0xFFFE) = true := by decide

theorem test_stax_b :
    gives ((((code [0x02]).setReg .b 0x3F).setReg .c 0x16).setReg .a 0x9C) 7 (fun t =>
      t.readByte 0x3F16 == 0x9C) = true := by decide

theorem test_stax_d :
    gives ((code [0x12]).setReg .a 0x77) 7 (fun t =>
      t.readByte 0x0000 == 0x77) = true := by decide

theorem test_ldax_d :
    gives ((((code [0x1A]).setReg .d 0x93).setReg .e 0x8B).placeBytes 0x938B [0x42]) 7 (fun t =>
      t.regs.a == 0x42) = true := by decide

theorem test_ldax_b :
    gives ((((code [0x0A]).setReg .b 0xFF).setReg .c 0xFF).placeBytes 0xFFFF [0x11]) 7 (fun t =>
      t.regs.a == 0x11) = true := by decide

theorem test_sta :
    gives ((code [0x32, 0xB3, 0x05]).setReg .a 0xE1) 13 (fun t =>
      t.readByte 0x05B3 == 0xE1 && t.pc == 0x0103) = true := by decide

theorem test_lda :
    gives ((code [0x3A, 0x00, 0x03]).placeBytes 0x0300 [0x99]) 13 (fun t =>
      t.regs.a == 0x99) = true := by decide

theorem test_shld :
    gives (((code [0x22, 0x0A, 0x01]).setReg .h 0xAE).setReg .l 0x29) 16 (fun t =>
      t.readByte 0x010A == 0x29 && t.readByte 0x010B == 0xAE) = true := by decide

theorem test_shld_wraps :
    gives (((code [0x22, 0xFF, 0xFF]).setReg .h 0x12).setReg .l 0x34) 16 (fun t =>
      t.readByte 0xFFFF == 0x34 && t.readByte 0x0000 == 0x12) = true := by decide

theorem test_lhld :
    gives ((code [0x2A, 0x5B, 0x02]).placeBytes 0x025B [0xFF, 0x03]) 16 (fun t =>
      t.regs.l == 0xFF && t.regs.h == 0x03) = true := by decide

theorem test_xchg :
    gives (((((code [0xEB]).setReg .d 0x33).setReg .e 0x55).setReg .h 0x00).setReg .l 0xFF) 4 (fun t =>
      t.regs.d == 0x00 && t.regs.e == 0xFF && t.regs.h == 0x33 && t.regs.l == 0x55) = true := by decide

theorem test_xthl :
    gives (((((code [0xE3]).setReg .h 0x0B).setReg .l 0x3C).setSp 0x10AD).placeBytes 0x10AD [0xF0, 0x0D]) 18 (fun t =>
      t.regs.h == 0x0D && t.regs.l == 0xF0 && t.readByte 0x10AD == 0x3C && t.readByte 0x10AE == 0x0B && t.sp == 0x10AD) = true := by decide

theorem test_sphl :
    gives (((code [0xF9]).setReg .h 0x50).setReg .l 0x6C) 5 (fun t =>
      t.sp == 0x506C) = true := by decide


/-! ## Arithmetic, logic and compare with A (95_test_vectors 2.2) -/

theorem test_add_b :
    alu [0x80] 0x2E 0x6C false 0x9A ⟨false, true, true, false, true⟩ 4 = true := by decide

theorem test_add_b_wraps :
    alu [0x80] 0x80 0x80 true 0x00 ⟨true, false, true, true, false⟩ 4 = true := by decide

theorem test_adi :
    alu [0xC6, 0x42] 0x14 0x00 true 0x56 ⟨false, false, true, false, false⟩ 7 = true := by decide

theorem test_adc_b :
    alu [0x88] 0x42 0x3D true 0x80 ⟨false, true, false, false, true⟩ 4 = true := by decide

theorem test_adc_b_wraps :
    alu [0x88] 0xFF 0x00 true 0x00 ⟨true, false, true, true, true⟩ 4 = true := by decide

theorem test_aci :
    alu [0xCE, 0xFF] 0xFF 0x00 true 0xFF ⟨false, true, true, true, true⟩ 7 = true := by decide

theorem test_sub_b :
    (alu [0x90] 0x3E 0x3E false 0x00 ⟨true, false, true, false, false⟩ 4
      && aluNb [0x90] 0x3E 0x3E false 0x00 ⟨true, false, true, false, true⟩) = true := by decide

theorem test_sub_b_ignores_cy :
    (alu [0x90] 0x10 0x01 true 0x0F ⟨false, false, true, false, true⟩ 4
      && aluNb [0x90] 0x10 0x01 true 0x0F ⟨false, false, true, false, false⟩) = true := by decide

theorem test_sui :
    (alu [0xD6, 0x0F] 0x80 0x00 false 0x71 ⟨false, false, true, false, true⟩ 7
      && aluNb [0xD6, 0x0F] 0x80 0x00 false 0x71 ⟨false, false, true, false, false⟩) = true := by decide

theorem test_sbb_b :
    (alu [0x98] 0x04 0x02 true 0x01 ⟨false, false, false, false, false⟩ 4
      && aluNb [0x98] 0x04 0x02 true 0x01 ⟨false, false, false, false, true⟩) = true := by decide

theorem test_sbb_b_borrow_counts :
    (alu [0x98] 0x00 0xFF true 0x00 ⟨true, false, true, true, true⟩ 4
      && aluNb [0x98] 0x00 0xFF true 0x00 ⟨true, false, true, true, false⟩) = true := by decide

theorem test_sbi :
    (alu [0xDE, 0x01] 0x00 0x00 true 0xFE ⟨false, true, false, true, true⟩ 7
      && aluNb [0xDE, 0x01] 0x00 0x00 true 0xFE ⟨false, true, false, true, false⟩) = true := by decide

theorem test_cmp_b :
    (alu [0xB8] 0x02 0x05 false 0x02 ⟨false, true, false, true, true⟩ 4
      && aluNb [0xB8] 0x02 0x05 false 0x02 ⟨false, true, false, true, false⟩) = true := by decide

theorem test_cmp_b_equal :
    (alu [0xB8] 0xE5 0xE5 true 0xE5 ⟨true, false, true, false, false⟩ 4
      && aluNb [0xB8] 0xE5 0xE5 true 0xE5 ⟨true, false, true, false, true⟩) = true := by decide

theorem test_cpi :
    (alu [0xFE, 0x40] 0x4A 0x00 false 0x4A ⟨false, false, true, false, false⟩ 7
      && aluNb [0xFE, 0x40] 0x4A 0x00 false 0x4A ⟨false, false, true, false, true⟩) = true := by decide

theorem test_ana_b :
    alu [0xA0] 0xFC 0x0F true 0x0C ⟨false, false, true, false, true⟩ 4 = true := by decide

theorem test_ana_b_ac_is_or :
    alu [0xA0] 0x08 0x00 true 0x00 ⟨true, false, true, false, true⟩ 4 = true := by decide

theorem test_ani :
    alu [0xE6, 0x0F] 0x3A 0x00 true 0x0A ⟨false, false, true, false, true⟩ 7 = true := by decide

theorem test_xra_b :
    alu [0xA8] 0x5C 0x78 true 0x24 ⟨false, false, true, false, false⟩ 4 = true := by decide

theorem test_xri :
    alu [0xEE, 0x81] 0x3B 0x00 true 0xBA ⟨false, true, false, false, false⟩ 7 = true := by decide

theorem test_ora_b :
    alu [0xB0] 0x33 0x0F true 0x3F ⟨false, false, true, false, false⟩ 4 = true := by decide

theorem test_ori :
    alu [0xF6, 0x0F] 0xB5 0x00 true 0xBF ⟨false, true, false, false, false⟩ 7 = true := by decide

/-- The memory form gives the same result and costs 7 (text after table 2.2). -/
theorem test_sbb_m :
    gives (((((code [0x9E]).setReg .a 0x04).setReg .h 0x20).setFlags ⟨false, false, false, true, false⟩).placeBytes 0x2000 [0x02]) 7 (fun t =>
      t.regs.a == 0x01 && t.flags == ⟨false, false, false, false, false⟩) = true := by decide


/-! ## INR, DCR, INX, DCX, DAD, DAA (95_test_vectors 2.3 to 2.5) -/

theorem test_inr_b :
    gives ((code [0x04]).setReg .b 0xFF) 5 (fun t =>
      t.regs.b == 0x00 && t.flags == ⟨true, false, true, false, true⟩) = true := by decide

theorem test_inr_b_keeps_cy :
    gives (((code [0x04]).setReg .b 0x0F).setFlags ⟨false, false, false, true, false⟩) 5 (fun t =>
      t.regs.b == 0x10 && t.flags == ⟨false, false, false, true, true⟩) = true := by decide

theorem test_inr_m :
    gives ((((code [0x34]).setReg .h 0x20).setFlags ⟨false, false, false, true, false⟩).placeBytes 0x2000 [0xFF]) 10 (fun t =>
      t.readByte 0x2000 == 0x00 && t.flags == ⟨true, false, true, true, true⟩) = true := by decide

theorem test_dcr_b :
    gives ((code [0x05]).setReg .b 0x00) 5 (fun t =>
      t.regs.b == 0xFF && t.flags == ⟨false, true, true, false, true⟩) = true := by decide

theorem test_dcr_b_not_borrow :
    gives (notBorrow (((code [0x05]).setReg .b 0x40).setFlags ⟨false, false, false, true, false⟩)) 5 (fun t =>
      t.regs.b == 0x3F && t.flags == ⟨false, false, true, true, false⟩) = true := by decide

theorem test_dcr_m :
    gives (((code [0x35]).setReg .h 0x20).placeBytes 0x2000 [0x10]) 10 (fun t =>
      t.readByte 0x2000 == 0x0F && t.flags == ⟨false, false, true, false, true⟩) = true := by decide

theorem test_inx_h :
    gives (((code [0x23]).setReg .h 0xFF).setReg .l 0xFF) 5 (fun t =>
      t.regs.h == 0x00 && t.regs.l == 0x00 && t.flags == ⟨false, false, false, false, false⟩) = true := by decide

theorem test_inx_sp :
    gives ((code [0x33]).setSp 0xFFFF) 5 (fun t =>
      t.sp == 0x0000) = true := by decide

theorem test_dcx_d :
    gives (code [0x1B]) 5 (fun t =>
      t.regs.d == 0xFF && t.regs.e == 0xFF && t.flags == ⟨false, false, false, false, false⟩) = true := by decide

theorem test_dcx_sp :
    gives (code [0x3B]) 5 (fun t =>
      t.sp == 0xFFFF) = true := by decide

theorem test_dad_b :
    gives ((((((code [0x09]).setReg .b 0x33).setReg .c 0x9F).setReg .h 0xA1).setReg .l 0x7B).setFlags ⟨true, false, false, true, false⟩) 10 (fun t =>
      t.regs.h == 0xD5 && t.regs.l == 0x1A && t.flags == ⟨true, false, false, false, false⟩) = true := by decide

theorem test_dad_h :
    gives ((code [0x29]).setReg .h 0x80) 10 (fun t =>
      t.regs.h == 0x00 && t.regs.l == 0x00 && t.flags == ⟨false, false, false, true, false⟩) = true := by decide

theorem test_daa_borderline :
    gives (((code [0x27]).setReg .a 0x9A).setFlags ⟨false, false, false, false, false⟩) 4 (fun t =>
      t.regs.a == 0x00 && t.flags == ⟨true, false, true, true, true⟩) = true := by decide

theorem test_daa_keeps_carry :
    gives (((code [0x27]).setReg .a 0x66).setFlags ⟨false, false, false, true, true⟩) 4 (fun t =>
      t.regs.a == 0xCC && t.flags == ⟨false, true, true, true, false⟩) = true := by decide


/-! ## Rotates and carry (95_test_vectors 2.6): Z = 1 and AC = 1 before and after -/

theorem test_rlc :
    gives (((code [0x07]).setReg .a 0xF2).setFlags ⟨true, false, false, false, true⟩) 4 (fun t =>
      t.regs.a == 0xE5 && t.flags == ⟨true, false, false, true, true⟩) = true := by decide

theorem test_rlc_ignores_cy :
    gives (((code [0x07]).setReg .a 0x01).setFlags ⟨true, false, false, true, true⟩) 4 (fun t =>
      t.regs.a == 0x02 && t.flags == ⟨true, false, false, false, true⟩) = true := by decide

theorem test_rrc :
    gives (((code [0x0F]).setReg .a 0x01).setFlags ⟨true, false, false, true, true⟩) 4 (fun t =>
      t.regs.a == 0x80 && t.flags == ⟨true, false, false, true, true⟩) = true := by decide

theorem test_rrc_ignores_cy :
    gives (((code [0x0F]).setReg .a 0x00).setFlags ⟨true, false, false, true, true⟩) 4 (fun t =>
      t.regs.a == 0x00 && t.flags == ⟨true, false, false, false, true⟩) = true := by decide

theorem test_ral :
    gives (((code [0x17]).setReg .a 0x01).setFlags ⟨true, false, false, true, true⟩) 4 (fun t =>
      t.regs.a == 0x03 && t.flags == ⟨true, false, false, false, true⟩) = true := by decide

theorem test_ral_keeps_z :
    gives (((code [0x17]).setReg .a 0x80).setFlags ⟨true, false, false, false, true⟩) 4 (fun t =>
      t.regs.a == 0x00 && t.flags == ⟨true, false, false, true, true⟩) = true := by decide

theorem test_rar :
    gives (((code [0x1F]).setReg .a 0x00).setFlags ⟨true, false, false, true, true⟩) 4 (fun t =>
      t.regs.a == 0x80 && t.flags == ⟨true, false, false, false, true⟩) = true := by decide

theorem test_rar_out :
    gives (((code [0x1F]).setReg .a 0xF2).setFlags ⟨true, false, false, false, true⟩) 4 (fun t =>
      t.regs.a == 0x79 && t.flags == ⟨true, false, false, false, true⟩) = true := by decide

theorem test_cma :
    gives (((code [0x2F]).setReg .a 0x51).setFlags ⟨true, false, false, false, true⟩) 4 (fun t =>
      t.regs.a == 0xAE && t.flags == ⟨true, false, false, false, true⟩) = true := by decide

theorem test_stc :
    gives (((code [0x37]).setReg .a 0x00).setFlags ⟨true, false, false, false, true⟩) 4 (fun t =>
      t.regs.a == 0x00 && t.flags == ⟨true, false, false, true, true⟩) = true := by decide

theorem test_cmc :
    gives (((code [0x3F]).setReg .a 0x00).setFlags ⟨true, false, false, true, true⟩) 4 (fun t =>
      t.regs.a == 0x00 && t.flags == ⟨true, false, false, false, true⟩) = true := by decide

theorem test_cmc_sets :
    gives (((code [0x3F]).setReg .a 0x00).setFlags ⟨true, false, false, false, true⟩) 4 (fun t =>
      t.regs.a == 0x00 && t.flags == ⟨true, false, false, true, true⟩) = true := by decide


/-! ## Branches (95_test_vectors 2.7); the rows the table lacks follow 30_encoding R97 and 43_branch R230 -/

theorem test_jmp :
    gives (code [0xC3, 0x00, 0x3E]) 10 (fun t =>
      t.pc == 0x3E00) = true := by decide

theorem test_jmp_fetch_wraps :
    gives (codeAt 0xFFFE [0xC3, 0x00, 0x20]) 10 (fun t =>
      t.pc == 0x2000) = true := by decide

theorem test_jnz :
    gives ((code [0xC2, 0x00, 0x20]).setFlags ⟨false, false, false, false, false⟩) 10 (fun t =>
      t.pc == 0x2000 && t.flags == ⟨false, false, false, false, false⟩) = true := by decide

theorem test_jnz_not_taken :
    gives ((code [0xC2, 0x00, 0x20]).setFlags ⟨true, false, false, false, false⟩) 10 (fun t =>
      t.pc == 0x0103 && t.flags == ⟨true, false, false, false, false⟩) = true := by decide

theorem test_jz :
    gives ((code [0xCA, 0x00, 0x20]).setFlags ⟨true, false, false, false, false⟩) 10 (fun t =>
      t.pc == 0x2000 && t.flags == ⟨true, false, false, false, false⟩) = true := by decide

theorem test_jz_not_taken :
    gives ((code [0xCA, 0x00, 0x20]).setFlags ⟨false, false, false, false, false⟩) 10 (fun t =>
      t.pc == 0x0103 && t.flags == ⟨false, false, false, false, false⟩) = true := by decide

theorem test_jnc :
    gives ((code [0xD2, 0x00, 0x20]).setFlags ⟨false, false, false, false, false⟩) 10 (fun t =>
      t.pc == 0x2000 && t.flags == ⟨false, false, false, false, false⟩) = true := by decide

theorem test_jnc_not_taken :
    gives ((code [0xD2, 0x00, 0x20]).setFlags ⟨false, false, false, true, false⟩) 10 (fun t =>
      t.pc == 0x0103 && t.flags == ⟨false, false, false, true, false⟩) = true := by decide

theorem test_jc :
    gives ((code [0xDA, 0x00, 0x20]).setFlags ⟨false, false, false, true, false⟩) 10 (fun t =>
      t.pc == 0x2000 && t.flags == ⟨false, false, false, true, false⟩) = true := by decide

theorem test_jc_not_taken :
    gives ((code [0xDA, 0x00, 0x20]).setFlags ⟨false, false, false, false, false⟩) 10 (fun t =>
      t.pc == 0x0103 && t.flags == ⟨false, false, false, false, false⟩) = true := by decide

theorem test_jpo :
    gives ((code [0xE2, 0x00, 0x20]).setFlags ⟨false, false, false, false, false⟩) 10 (fun t =>
      t.pc == 0x2000 && t.flags == ⟨false, false, false, false, false⟩) = true := by decide

theorem test_jpo_not_taken :
    gives ((code [0xE2, 0x00, 0x20]).setFlags ⟨false, false, true, false, false⟩) 10 (fun t =>
      t.pc == 0x0103 && t.flags == ⟨false, false, true, false, false⟩) = true := by decide

theorem test_jpe :
    gives ((code [0xEA, 0x00, 0x20]).setFlags ⟨false, false, true, false, false⟩) 10 (fun t =>
      t.pc == 0x2000 && t.flags == ⟨false, false, true, false, false⟩) = true := by decide

theorem test_jpe_not_taken :
    gives ((code [0xEA, 0x00, 0x20]).setFlags ⟨false, false, false, false, false⟩) 10 (fun t =>
      t.pc == 0x0103 && t.flags == ⟨false, false, false, false, false⟩) = true := by decide

theorem test_jp :
    gives ((code [0xF2, 0x00, 0x20]).setFlags ⟨false, false, false, false, false⟩) 10 (fun t =>
      t.pc == 0x2000 && t.flags == ⟨false, false, false, false, false⟩) = true := by decide

theorem test_jp_not_taken :
    gives ((code [0xF2, 0x00, 0x20]).setFlags ⟨false, true, false, false, false⟩) 10 (fun t =>
      t.pc == 0x0103 && t.flags == ⟨false, true, false, false, false⟩) = true := by decide

theorem test_jm :
    gives ((code [0xFA, 0x00, 0x20]).setFlags ⟨false, true, false, false, false⟩) 10 (fun t =>
      t.pc == 0x2000 && t.flags == ⟨false, true, false, false, false⟩) = true := by decide

theorem test_jm_not_taken :
    gives ((code [0xFA, 0x00, 0x20]).setFlags ⟨false, false, false, false, false⟩) 10 (fun t =>
      t.pc == 0x0103 && t.flags == ⟨false, false, false, false, false⟩) = true := by decide

theorem test_call_wraps :
    gives ((code [0xCD, 0x00, 0x02]).setSp 0x0001) 17 (fun t =>
      t.sp == 0xFFFF && t.readByte 0xFFFF == 0x03 && t.readByte 0x0000 == 0x01 && t.pc == 0x0200) = true := by decide

theorem test_call_at_top :
    gives ((codeAt 0xFFFE [0xCD, 0x00, 0x30]).setSp 0x2400) 17 (fun t =>
      t.readByte 0x23FE == 0x01 && t.readByte 0x23FF == 0x00 && t.pc == 0x3000) = true := by decide

theorem test_cnz :
    gives (((code [0xC4, 0x00, 0x03]).setSp 0x2400).setFlags ⟨false, false, false, false, false⟩) 17 (fun t =>
      t.sp == 0x23FE && t.readByte 0x23FE == 0x03 && t.readByte 0x23FF == 0x01 && t.pc == 0x0300) = true := by decide

theorem test_cnz_not_taken :
    gives (((code [0xC4, 0x00, 0x03]).setSp 0x2400).setFlags ⟨true, false, false, false, false⟩) 11 (fun t =>
      t.sp == 0x2400 && t.mem == (code [0xC4, 0x00, 0x03]).mem && t.pc == 0x0103) = true := by decide

theorem test_cz :
    gives (((code [0xCC, 0x00, 0x03]).setSp 0x2400).setFlags ⟨true, false, false, false, false⟩) 17 (fun t =>
      t.sp == 0x23FE && t.readByte 0x23FE == 0x03 && t.readByte 0x23FF == 0x01 && t.pc == 0x0300) = true := by decide

theorem test_cz_not_taken :
    gives (((code [0xCC, 0x00, 0x03]).setSp 0x2400).setFlags ⟨false, false, false, false, false⟩) 11 (fun t =>
      t.sp == 0x2400 && t.mem == (code [0xCC, 0x00, 0x03]).mem && t.pc == 0x0103) = true := by decide

theorem test_cnc :
    gives (((code [0xD4, 0x00, 0x03]).setSp 0x2400).setFlags ⟨false, false, false, false, false⟩) 17 (fun t =>
      t.sp == 0x23FE && t.readByte 0x23FE == 0x03 && t.readByte 0x23FF == 0x01 && t.pc == 0x0300) = true := by decide

theorem test_cnc_not_taken :
    gives (((code [0xD4, 0x00, 0x03]).setSp 0x2400).setFlags ⟨false, false, false, true, false⟩) 11 (fun t =>
      t.sp == 0x2400 && t.mem == (code [0xD4, 0x00, 0x03]).mem && t.pc == 0x0103) = true := by decide

theorem test_cc :
    gives (((code [0xDC, 0x00, 0x03]).setSp 0x2400).setFlags ⟨false, false, false, true, false⟩) 17 (fun t =>
      t.sp == 0x23FE && t.readByte 0x23FE == 0x03 && t.readByte 0x23FF == 0x01 && t.pc == 0x0300) = true := by decide

theorem test_cc_not_taken :
    gives (((code [0xDC, 0x00, 0x03]).setSp 0x2400).setFlags ⟨false, false, false, false, false⟩) 11 (fun t =>
      t.sp == 0x2400 && t.mem == (code [0xDC, 0x00, 0x03]).mem && t.pc == 0x0103) = true := by decide

theorem test_cpo :
    gives (((code [0xE4, 0x00, 0x03]).setSp 0x2400).setFlags ⟨false, false, false, false, false⟩) 17 (fun t =>
      t.sp == 0x23FE && t.readByte 0x23FE == 0x03 && t.readByte 0x23FF == 0x01 && t.pc == 0x0300) = true := by decide

theorem test_cpo_not_taken :
    gives (((code [0xE4, 0x00, 0x03]).setSp 0x2400).setFlags ⟨false, false, true, false, false⟩) 11 (fun t =>
      t.sp == 0x2400 && t.mem == (code [0xE4, 0x00, 0x03]).mem && t.pc == 0x0103) = true := by decide

theorem test_cpe :
    gives (((code [0xEC, 0x00, 0x03]).setSp 0x2400).setFlags ⟨false, false, true, false, false⟩) 17 (fun t =>
      t.sp == 0x23FE && t.readByte 0x23FE == 0x03 && t.readByte 0x23FF == 0x01 && t.pc == 0x0300) = true := by decide

theorem test_cpe_not_taken :
    gives (((code [0xEC, 0x00, 0x03]).setSp 0x2400).setFlags ⟨false, false, false, false, false⟩) 11 (fun t =>
      t.sp == 0x2400 && t.mem == (code [0xEC, 0x00, 0x03]).mem && t.pc == 0x0103) = true := by decide

theorem test_cp :
    gives (((code [0xF4, 0x00, 0x03]).setSp 0x2400).setFlags ⟨false, false, false, false, false⟩) 17 (fun t =>
      t.sp == 0x23FE && t.readByte 0x23FE == 0x03 && t.readByte 0x23FF == 0x01 && t.pc == 0x0300) = true := by decide

theorem test_cp_not_taken :
    gives (((code [0xF4, 0x00, 0x03]).setSp 0x2400).setFlags ⟨false, true, false, false, false⟩) 11 (fun t =>
      t.sp == 0x2400 && t.mem == (code [0xF4, 0x00, 0x03]).mem && t.pc == 0x0103) = true := by decide

theorem test_cm :
    gives (((code [0xFC, 0x00, 0x03]).setSp 0x2400).setFlags ⟨false, true, false, false, false⟩) 17 (fun t =>
      t.sp == 0x23FE && t.readByte 0x23FE == 0x03 && t.readByte 0x23FF == 0x01 && t.pc == 0x0300) = true := by decide

theorem test_cm_not_taken :
    gives (((code [0xFC, 0x00, 0x03]).setSp 0x2400).setFlags ⟨false, false, false, false, false⟩) 11 (fun t =>
      t.sp == 0x2400 && t.mem == (code [0xFC, 0x00, 0x03]).mem && t.pc == 0x0103) = true := by decide

theorem test_ret :
    gives (((code [0xC9]).setSp 0x23FE).placeBytes 0x23FE [0x03, 0x01]) 10 (fun t =>
      t.pc == 0x0103 && t.sp == 0x2400) = true := by decide

theorem test_rnz :
    gives ((((code [0xC0]).setSp 0x23FE).placeBytes 0x23FE [0x03, 0x01]).setFlags ⟨false, false, false, false, false⟩) 11 (fun t =>
      t.pc == 0x0103 && t.sp == 0x2400) = true := by decide

theorem test_rnz_not_taken :
    gives ((((code [0xC0]).setSp 0x23FE).placeBytes 0x23FE [0x03, 0x01]).setFlags ⟨true, false, false, false, false⟩) 5 (fun t =>
      t.pc == 0x0101 && t.sp == 0x23FE) = true := by decide

theorem test_rz :
    gives ((((code [0xC8]).setSp 0x23FE).placeBytes 0x23FE [0x03, 0x01]).setFlags ⟨true, false, false, false, false⟩) 11 (fun t =>
      t.pc == 0x0103 && t.sp == 0x2400) = true := by decide

theorem test_rz_not_taken :
    gives ((((code [0xC8]).setSp 0x23FE).placeBytes 0x23FE [0x03, 0x01]).setFlags ⟨false, false, false, false, false⟩) 5 (fun t =>
      t.pc == 0x0101 && t.sp == 0x23FE) = true := by decide

theorem test_rnc :
    gives ((((code [0xD0]).setSp 0x23FE).placeBytes 0x23FE [0x03, 0x01]).setFlags ⟨false, false, false, false, false⟩) 11 (fun t =>
      t.pc == 0x0103 && t.sp == 0x2400) = true := by decide

theorem test_rnc_not_taken :
    gives ((((code [0xD0]).setSp 0x23FE).placeBytes 0x23FE [0x03, 0x01]).setFlags ⟨false, false, false, true, false⟩) 5 (fun t =>
      t.pc == 0x0101 && t.sp == 0x23FE) = true := by decide

theorem test_rc :
    gives ((((code [0xD8]).setSp 0x23FE).placeBytes 0x23FE [0x03, 0x01]).setFlags ⟨false, false, false, true, false⟩) 11 (fun t =>
      t.pc == 0x0103 && t.sp == 0x2400) = true := by decide

theorem test_rc_not_taken :
    gives ((((code [0xD8]).setSp 0x23FE).placeBytes 0x23FE [0x03, 0x01]).setFlags ⟨false, false, false, false, false⟩) 5 (fun t =>
      t.pc == 0x0101 && t.sp == 0x23FE) = true := by decide

theorem test_rpo :
    gives ((((code [0xE0]).setSp 0x23FE).placeBytes 0x23FE [0x03, 0x01]).setFlags ⟨false, false, false, false, false⟩) 11 (fun t =>
      t.pc == 0x0103 && t.sp == 0x2400) = true := by decide

theorem test_rpo_not_taken :
    gives ((((code [0xE0]).setSp 0x23FE).placeBytes 0x23FE [0x03, 0x01]).setFlags ⟨false, false, true, false, false⟩) 5 (fun t =>
      t.pc == 0x0101 && t.sp == 0x23FE) = true := by decide

theorem test_rpe :
    gives ((((code [0xE8]).setSp 0x23FE).placeBytes 0x23FE [0x03, 0x01]).setFlags ⟨false, false, true, false, false⟩) 11 (fun t =>
      t.pc == 0x0103 && t.sp == 0x2400) = true := by decide

theorem test_rpe_not_taken :
    gives ((((code [0xE8]).setSp 0x23FE).placeBytes 0x23FE [0x03, 0x01]).setFlags ⟨false, false, false, false, false⟩) 5 (fun t =>
      t.pc == 0x0101 && t.sp == 0x23FE) = true := by decide

theorem test_rp :
    gives ((((code [0xF0]).setSp 0x23FE).placeBytes 0x23FE [0x03, 0x01]).setFlags ⟨false, false, false, false, false⟩) 11 (fun t =>
      t.pc == 0x0103 && t.sp == 0x2400) = true := by decide

theorem test_rp_not_taken :
    gives ((((code [0xF0]).setSp 0x23FE).placeBytes 0x23FE [0x03, 0x01]).setFlags ⟨false, true, false, false, false⟩) 5 (fun t =>
      t.pc == 0x0101 && t.sp == 0x23FE) = true := by decide

theorem test_rm :
    gives ((((code [0xF8]).setSp 0x23FE).placeBytes 0x23FE [0x03, 0x01]).setFlags ⟨false, true, false, false, false⟩) 11 (fun t =>
      t.pc == 0x0103 && t.sp == 0x2400) = true := by decide

theorem test_rm_not_taken :
    gives ((((code [0xF8]).setSp 0x23FE).placeBytes 0x23FE [0x03, 0x01]).setFlags ⟨false, false, false, false, false⟩) 5 (fun t =>
      t.pc == 0x0101 && t.sp == 0x23FE) = true := by decide

theorem test_rst_7 :
    gives ((codeAt 0x1234 [0xFF]).setSp 0x2400) 11 (fun t =>
      t.sp == 0x23FE && t.readByte 0x23FE == 0x35 && t.readByte 0x23FF == 0x12 && t.pc == 0x0038) = true := by decide

theorem test_rst_3_at_top :
    gives ((codeAt 0xFFFF [0xDF]).setSp 0x2400) 11 (fun t =>
      t.readByte 0x23FE == 0x00 && t.readByte 0x23FF == 0x00 && t.pc == 0x0018) = true := by decide

theorem test_pchl :
    gives (((code [0xE9]).setReg .h 0x41).setReg .l 0x3E) 5 (fun t =>
      t.pc == 0x413E) = true := by decide


/-! ## Stack (95_test_vectors 2.8) -/

theorem test_push_d :
    gives ((((code [0xD5]).setReg .d 0x8F).setReg .e 0x9D).setSp 0x3A2C) 11 (fun t =>
      t.sp == 0x3A2A && t.readByte 0x3A2A == 0x9D && t.readByte 0x3A2B == 0x8F) = true := by decide

theorem test_push_h_wraps :
    gives (((code [0xE5]).setReg .h 0x12).setReg .l 0x34) 11 (fun t =>
      t.sp == 0xFFFE && t.readByte 0xFFFE == 0x34 && t.readByte 0xFFFF == 0x12) = true := by decide

theorem test_push_psw :
    gives ((((code [0xF5]).setReg .a 0x1F).setFlags ⟨true, false, true, true, false⟩).setSp 0x502A) 11 (fun t =>
      t.sp == 0x5028 && t.readByte 0x5028 == 0x47 && t.readByte 0x5029 == 0x1F) = true := by decide

theorem test_push_psw_all_flags :
    gives ((((code [0xF5]).setReg .a 0xAA).setFlags ⟨true, true, true, true, true⟩).setSp 0x1000) 11 (fun t =>
      t.readByte 0x0FFE == 0xD7 && t.readByte 0x0FFF == 0xAA) = true := by decide

theorem test_pop_h :
    gives (((code [0xE1]).setSp 0x1239).placeBytes 0x1239 [0x3D, 0x93]) 10 (fun t =>
      t.regs.l == 0x3D && t.regs.h == 0x93 && t.sp == 0x123B) = true := by decide

theorem test_pop_b_wraps :
    gives (((code [0xC1]).setSp 0xFFFF).placeBytes 0xFFFF [0x11, 0x22]) 10 (fun t =>
      t.regs.c == 0x11 && t.regs.b == 0x22 && t.sp == 0x0001) = true := by decide

theorem test_pop_psw :
    gives (((code [0xF1]).setSp 0x2C00).placeBytes 0x2C00 [0xC3, 0xFF]) 10 (fun t =>
      t.regs.a == 0xFF && t.flags == ⟨true, true, false, true, false⟩ && t.sp == 0x2C02) = true := by decide

theorem test_pop_psw_all_bits :
    gives (((code [0xF1]).setSp 0x2C00).placeBytes 0x2C00 [0xFF, 0x00]) 10 (fun t =>
      t.regs.a == 0x00 && t.flags == ⟨true, true, true, true, true⟩ && t.flags.toByte == 0xD7) = true := by decide


/-! ## Input, output, control, interrupt, Load, undocumented bytes (95_test_vectors 2.9) -/

theorem test_in :
    gives { (code [0xDB, 0x01]).setReg .a 0x11 with devInputs := [0x5A] } 10 (fun t =>
      t.regs.a == 0x5A && t.pc == 0x0102 && t.events == [.input 0x01 0x5A] && t.devInputs == []) = true := by decide

/-- With no answer laid ready the byte is the free value, whatever it is (assumption log 9). -/
theorem test_in_free_value :
    ∃ t, step (code [0xDB, 0x01]) = .next t ∧ t.regs.a = Config.devIn 0 0x01 ∧ t.devDraws = 1 := ⟨_, rfl, rfl, rfl⟩

theorem test_out :
    gives ((code [0xD3, 0x02]).setReg .a 0x41) 10 (fun t =>
      t.events == [.output 0x02 0x41] && t.regs.a == 0x41) = true := by decide

theorem test_ei :
    gives (code [0xFB]) 4 (fun t =>
      t.inte == true) = true := by decide

theorem test_di :
    gives ((code [0xF3]).setInte true) 4 (fun t =>
      t.inte == false) = true := by decide

theorem test_hlt :
    gives (code [0x76]) 7 (fun t =>
      t.halted == true && t.pc == 0x0101) = true := by decide

theorem test_nop :
    gives (code [0x00]) 4 (fun t =>
      t.regs == State.reset.regs && t.pc == 0x0101 && t.flags == ⟨false, false, false, false, false⟩) = true := by decide

theorem test_step_halted :
    gives ((code [0x00]).halt) 0 (fun t => t == (code [0x00]).halt) = true := by decide

theorem test_interrupt_accepted :
    (let s := ((State.reset.jump 0x0005).setSp 0x2400).setInte true
    let t := s.interrupt 0x0038
    (t.inte, t.sp, t.readByte 0x23FE, t.readByte 0x23FF, t.pc, reportedCycles s t)) =
      (false, 0x23FE, 0x05, 0x00, 0x0038, 17) := by decide

theorem test_interrupt_ignored :
    ((State.reset.jump 0x0005).setSp 0x2400).interrupt 0x0038 = (State.reset.jump 0x0005).setSp 0x2400 := by decide

theorem test_interrupt_while_halted :
    (let t := ((State.reset.halt).setInte true).interrupt 0x0038
    (t.halted, t.inte, t.pc)) = (true, false, 0x0038) := by decide

theorem test_undoc_fault :
    (match step (code [0x08]) with
      | .fault (.unimplementedInstruction op e) => op == 0x08 && e == (code [0x08]).jump 0x0101
      | .fault .outOfRange => false
      | .next _ => false
      | .refused _ => false) = true := by decide

theorem test_undoc_nop :
    gives (undocRuns (code [0x08])) 4 (fun t =>
      t.pc == 0x0101) = true := by decide

theorem test_undoc_jmp :
    gives (undocRuns (code [0xCB, 0x00, 0x20])) 10 (fun t =>
      t.pc == 0x2000) = true := by decide

theorem test_undoc_ret :
    gives (undocRuns (((code [0xD9]).setSp 0x23FE).placeBytes 0x23FE [0x03, 0x01])) 10 (fun t =>
      t.pc == 0x0103 && t.sp == 0x2400) = true := by decide

theorem test_undoc_call :
    gives (undocRuns ((code [0xDD, 0x00, 0x02]).setSp 0x2400)) 17 (fun t =>
      t.pc == 0x0200 && t.readByte 0x23FE == 0x03 && t.readByte 0x23FF == 0x01) = true := by decide

theorem test_host_writes_cycles :
    (match State.reset.hostDo (.setCycles 7) with
      | .next t => t.cycles == 7 && t.pc == 0
      | .fault _ => false
      | .refused _ => false) = true := by decide

theorem test_load_refused :
    (match State.reset.hostLoad [0x01, 0x02] 0xFFFF with
      | .fault r => r == .outOfRange
      | .next _ => false
      | .refused _ => false) = true := by decide

theorem test_load_last_byte :
    (match State.reset.hostLoad [0x5A] 0xFFFF with
      | .next t => t.readByte 0xFFFF == 0x5A
      | .fault _ => false
      | .refused _ => false) = true := by decide

/-- S8. -/
theorem test_af_masks :
    (State.reset.setAf 0xFFFF).af = 0xFFD7 ∧ (State.reset.setAf 0x0000).af = 0x0002 ∧
      (State.reset.setAf 0x1228).af = 0x1202 := by decide

/-- The checksum of the table that 70_reset_and_hazards R350 states. -/
theorem test_cyc_sum :
    (cycDefault.toList.map fun row => row.toList.sum).sum = 1653 := by decide

/-- The placed word wraps past the top of memory. -/
theorem test_fetch_word_at_top :
    (match step ((State.reset.jump 0xFFFF).withFetchWord 24 0x3E00C3) with
      | .next t => t.pc == 0x3E00
      | .fault _ => false
      | .refused _ => false) = true := by decide

/-- Canonical form: equal memories are equal lists. -/
theorem test_writing_the_unlisted_value_removes_the_entry :
    ((State.reset.writeByte 0x1234 0x56).writeByte 0x1234 0x00).mem = [] := by decide


/-! ## Witnesses: for each statement with hypotheses, a concrete state that meets them

`edge` is a state at the boundaries: PC at FFFE, SP at 0000, HL at FFFF, DE at 0000, a byte listed at
each end of memory, INTE set. -/

def edge : State :=
  { State.reset with
    pc := 0xFFFE, regs := { State.reset.regs with a := 0x5A, h := 0xFF, l := 0xFF },
    inte := true, mem := [(0, 0x11), (0xFFFF, 0x22)] }

theorem edge_inv : edge.Inv := (by decide : Memory.wf edge.mem = true)

/-- `edge` with INTE clear and another SP and flags. -/
def calm (sp : Word) (f : Flags) : State := ((edge.setInte false).setSp sp).setFlags f

theorem calm_inv (sp : Word) (f : Flags) : (calm sp f).Inv := edge_inv

theorem witness_DecodeOfEncode :
    (Instr.undocNop 1).wf = true ∧ (Instr.undocNop 7).wf = true ∧ (Instr.undocCall 1 0).wf = true ∧
      (Instr.undocCall 3 0xFFFF).wf = true ∧ (Instr.lxi .sp 0xFFFF).wf = true := by decide

theorem witness_EncodeOfDecode :
    ∃ i rest, decode [0x31, 0xFE, 0xFF, 0x76] = .ok (i, rest) ∧ i = .lxi .sp 0xFFFE ∧ rest = [0x76] := ⟨_, _, rfl, rfl, rfl⟩

/-- At FFFE the third byte is at 0000. -/
theorem witness_StepRunsTheDecodedInstruction :
    (edge.halted = false ∧ ∃ i rest,
      decode [edge.readByte edge.pc, edge.readByte (edge.pc + 1), edge.readByte (edge.pc + 2)] =
        .ok (i, rest) ∧ i.wf = true) ∧ (edge.halt).halted = true := ⟨⟨rfl, _, _, rfl, rfl⟩, rfl⟩

/-- The word wraps past the top of memory. -/
theorem witness_StepRunsThePlacedWord :
    edge.Inv ∧ decodeTableWord 24 0x3E00C3 = some (.jmp 0x3E00) := ⟨edge_inv, by decide⟩

theorem witness_StepKeepsMemoryCanonical :
    (code [0x77]).Inv ∧ ∃ t, step (code [0x77]) = .next t := ⟨(by decide : Memory.wf (code [0x77]).mem = true), _, rfl⟩

theorem witness_HostScheduleKeepsMemoryCanonical :
    edge.Inv ∧ ∃ t, edge.drive [.interrupt 0x0038, .writeWord 0xFFFF 0x1234, .load [0x76] 0xFFFF,
      .setPc 0xFFFF, .setCycles 7, .step, .reset ⟨State.reset.regs, 0xFFFF, State.reset.flags⟩] = .next t := ⟨edge_inv, _, rfl⟩

theorem witness_ResetMemoryIsCanonical :
    Memory.wf [(0, 0x11), (0xFFFF, 0x22)] = true := by decide

theorem witness_CanonicalMemoriesThatReadAlikeAreEqual :
    Memory.wf edge.mem = true ∧ Memory.wf [(0, 0x11), (0xFFFF, 0x22)] = true ∧
      ∀ a : Word, Memory.read edge.mem a.toNat = Memory.read [(0, 0x11), (0xFFFF, 0x22)] a.toNat := ⟨edge_inv, by decide, fun _ => rfl⟩

theorem witness_OnlyHltAndResetWriteHalted :
    (∃ t, (code [0x76]).hostDo .step = .next t ∧ t.halted ≠ (code [0x76]).halted) ∧
      ∃ t, (edge.halt).hostDo (.reset ⟨edge.regs, 0, edge.flags⟩) = .next t ∧
        t.halted ≠ (edge.halt).halted := ⟨⟨_, rfl, by decide⟩, _, rfl, by decide⟩

theorem witness_OnlyEiDiInterruptAndResetWriteInte :
    (∃ t, (code [0xFB]).hostDo .step = .next t ∧ t.inte ≠ (code [0xFB]).inte) ∧
      (∃ t, ((code [0xF3]).setInte true).hostDo .step = .next t ∧ t.inte ≠ true) ∧
      (∃ t, edge.hostDo (.interrupt 0xFFFF) = .next t ∧ t.inte ≠ edge.inte) ∧
      ∃ t, edge.hostDo (.reset ⟨edge.regs, 0, edge.flags⟩) = .next t ∧ t.inte ≠ edge.inte := ⟨⟨_, rfl, by decide⟩, ⟨_, rfl, by decide⟩, ⟨_, rfl, by decide⟩, _, rfl, by decide⟩

theorem witness_StepFailsExactlyAtUndocumentedBytes :
    (code [0x08]).halted = false ∧ (code [0x08]).params.undoc = .fault ∧
      (code [0x08]).opcodeAtPc ∈ undocumentedOpcodes ∧
      (undocRuns (code [0xFD])).params.undoc = .duplicate ∧
      (undocRuns (code [0xFD])).opcodeAtPc ∈ undocumentedOpcodes ∧
      (code [0xCD]).opcodeAtPc ∉ undocumentedOpcodes := by decide

theorem witness_StepTouchesDevicesOnlyByInAndOut :
    (∃ t, step (code [0xDB, 0x01]) = .next t ∧ (code [0xDB, 0x01]).opcodeAtPc = 0xDB) ∧
      (∃ t, step (code [0xD3, 0x01]) = .next t ∧ (code [0xD3, 0x01]).opcodeAtPc = 0xD3) ∧
      ∃ t, step (code [0x00]) = .next t ∧ (code [0x00]).opcodeAtPc ≠ 0xDB ∧
        (code [0x00]).opcodeAtPc ≠ 0xD3 := ⟨⟨_, rfl, by decide⟩, ⟨_, rfl, by decide⟩, _, rfl, by decide, by decide⟩

theorem witness_StepCountsCycles :
    (∃ t, step (code [0xC4, 0x00, 0x03]) = .next t ∧
        takenByOpcode (code [0xC4, 0x00, 0x03]).opcodeAtPc (code [0xC4, 0x00, 0x03]).flags = true) ∧
      ∃ t, step (code [0xCC, 0x00, 0x03]) = .next t ∧
        takenByOpcode (code [0xCC, 0x00, 0x03]).opcodeAtPc (code [0xCC, 0x00, 0x03]).flags = false := ⟨⟨_, rfl, by decide⟩, _, rfl, by decide⟩

theorem witness_CyclesNeverFeedBack :
    (∃ t, step (code [0x77]) = .next t) ∧
      ∃ op e, step (code [0x08]) = .fault (.unimplementedInstruction op e) := ⟨⟨_, rfl⟩, _, _, rfl⟩

theorem witness_StepAdvancesPcByTheLength :
    ∃ t, step edge = .next t ∧ edge.halted = false ∧ edge.opcodeAtPc ∉ controlTransferOpcodes := ⟨_, rfl, rfl, by decide⟩

theorem witness_StepKeepsFlagsElsewhere :
    ∃ t, step (code [0x23]) = .next t ∧ writesFlags (code [0x23]).opcodeAtPc = false := ⟨_, rfl, by decide⟩

theorem witness_StepKeepsMemoryElsewhere :
    ∃ t, step (code [0xF1]) = .next t ∧ mayStore (code [0xF1]).opcodeAtPc = false := ⟨_, rfl, by decide⟩

/-- A state at the edges of every address a store can use (HL = FFFF, BC = 0000, DE = FFFF, SP = 1)
that runs the bytes at 0100, undocumented ones too. -/
def storer (bytes : List Byte) : State :=
  undocRuns { code bytes with
    sp := 1, regs := { State.reset.regs with a := 0x5A, d := 0xFF, e := 0xFF, h := 0xFF, l := 0xFF } }

/-- The hypotheses of the first clause of StoreIsSeenByTheNextFetch. -/
def Storing (s : State) (i : Instr) (a : Word) (v : Byte) : Prop :=
  s.Inv ∧ s.halted = false ∧
    (∃ rest, decode [s.readByte s.pc, s.readByte (s.pc + 1), s.readByte (s.pc + 2)] = .ok (i, rest)) ∧
    s.Stores i a v

theorem storing {s : State} {i : Instr} {a : Word} {v : Byte} (hm : Memory.wf s.mem = true)
    (hh : s.halted = false)
    (hd : ∃ rest, decode [s.readByte s.pc, s.readByte (s.pc + 1), s.readByte (s.pc + 2)] =
      .ok (i, rest)) (hs : s.Stores i a v) : Storing s i a v := ⟨hm, hh, hd, hs⟩

/-- Every direct store, at the edges of memory. -/
theorem witness_StoreIsSeenByTheNextFetch_direct :
    Storing (storer [0x77]) (.movMR .a) 0xFFFF 0x5A ∧
    Storing (storer [0x36, 0xC3]) (.mviM 0xC3) 0xFFFF 0xC3 ∧
    Storing (storer [0x02]) (.stax .bc) 0 0x5A ∧
    Storing (storer [0x12]) (.stax .de) 0xFFFF 0x5A ∧
    Storing (storer [0x32, 0xFF, 0xFF]) (.sta 0xFFFF) 0xFFFF 0x5A ∧
    Storing (storer [0x22, 0xFF, 0xFF]) (.shld 0xFFFF) 0xFFFF 0xFF ∧
    Storing (storer [0x22, 0xFF, 0xFF]) (.shld 0xFFFF) 0 0xFF ∧
    Storing (storer [0xE3]) (.xthl) 1 0xFF ∧
    Storing (storer [0xE3]) (.xthl) 2 0xFF ∧
    Storing (storer [0x34]) (.inrM) 0xFFFF 1 ∧
    Storing (storer [0x35]) (.dcrM) 0xFFFF 0xFF := 
  ⟨storing (by decide) rfl ⟨_, rfl⟩ (.movMR .a),
    storing (by decide) rfl ⟨_, rfl⟩ (.mviM 0xC3),
    storing (by decide) rfl ⟨_, rfl⟩ (.staxBc),
    storing (by decide) rfl ⟨_, rfl⟩ (.staxDe),
    storing (by decide) rfl ⟨_, rfl⟩ (.sta 0xFFFF),
    storing (by decide) rfl ⟨_, rfl⟩ (.shldLow 0xFFFF),
    storing (by decide) rfl ⟨_, rfl⟩ (.shldHigh 0xFFFF),
    storing (by decide) rfl ⟨_, rfl⟩ (.xthlLow),
    storing (by decide) rfl ⟨_, rfl⟩ (.xthlHigh),
    storing (by decide) rfl ⟨_, rfl⟩ (.inrM 1 (by decide)),
    storing (by decide) rfl ⟨_, rfl⟩ (.dcrM 0xFF (by decide))⟩

/-- Every store to the stack, where SP - 2 wraps. -/
theorem witness_StoreIsSeenByTheNextFetch_stack :
    Storing (storer [0xD5]) (.push .de) 0xFFFF 0xFF ∧
    Storing (storer [0xC5]) (.push .bc) 0 0 ∧
    Storing (storer [0xF5]) (.pushPsw) 0xFFFF 2 ∧
    Storing (storer [0xF5]) (.pushPsw) 0 0x5A ∧
    Storing (storer [0xCD, 0x00, 0x00]) (.call 0) 0xFFFF 0x03 ∧
    Storing (storer [0xCD, 0x00, 0x00]) (.call 0) 0 0x01 ∧
    Storing (storer [0xC4, 0x00, 0x00]) (.cnz 0) 0xFFFF 0x03 ∧
    Storing (storer [0xF4, 0x00, 0x00]) (.cp 0) 0 0x01 ∧
    Storing (storer [0xFF]) (.rst 7) 0xFFFF 0x01 ∧
    Storing (storer [0xC7]) (.rst 0) 0 0x01 ∧
    Storing (storer [0xDD, 0x00, 0x00]) (.undocCall 1 0) 0xFFFF 0x03 ∧
    Storing (storer [0xFD, 0x00, 0x00]) (.undocCall 3 0) 0 0x01 := 
  ⟨storing (by decide) rfl ⟨_, rfl⟩ (.pushLow .de),
    storing (by decide) rfl ⟨_, rfl⟩ (.pushHigh .bc),
    storing (by decide) rfl ⟨_, rfl⟩ (.pushPswLow 2 (by decide)),
    storing (by decide) rfl ⟨_, rfl⟩ (.pushPswHigh),
    storing (by decide) rfl ⟨_, rfl⟩ (.callLow 0),
    storing (by decide) rfl ⟨_, rfl⟩ (.callHigh 0),
    storing (by decide) rfl ⟨_, rfl⟩ (.condCallLow (0xC4, .cnz, fun f => !f.z) (by simp [conditionalCalls]) rfl 0),
    storing (by decide) rfl ⟨_, rfl⟩ (.condCallHigh (0xF4, .cp, fun f => !f.s) (by simp [conditionalCalls]) rfl 0),
    storing (by decide) rfl ⟨_, rfl⟩ (.rstLow 7),
    storing (by decide) rfl ⟨_, rfl⟩ (.rstHigh 0),
    storing (by decide) rfl ⟨_, rfl⟩ (.undocCallLow rfl 1 0),
    storing (by decide) rfl ⟨_, rfl⟩ (.undocCallHigh rfl 3 0)⟩

/-- A CALL to the byte it stores to, STA of the next byte, and an interrupt to either byte it
stores. -/
theorem witness_StoreIsSeenByTheNextFetch :
    (∃ t, step (storer [0xCD, 0xFF, 0xFF]) = .next t ∧ t.pc = 0xFFFF) ∧
      (code [0x32, 0x03, 0x01]).Inv ∧ (code [0x32, 0x03, 0x01]).halted = false ∧
      (code [0x32, 0x03, 0x01]).opcodeAtPc = 0x32 ∧
      wordOf ((code [0x32, 0x03, 0x01]).readByte ((code [0x32, 0x03, 0x01]).pc + 2))
        ((code [0x32, 0x03, 0x01]).readByte ((code [0x32, 0x03, 0x01]).pc + 1)) =
        (code [0x32, 0x03, 0x01]).pc + 3 ∧
      edge.Inv ∧ edge.inte = true ∧ (0xFFFE : Word) = edge.sp - 2 ∧
      (0xFFFF : Word) = edge.sp - 2 + 1 := 
  ⟨⟨_, rfl, rfl⟩, (by decide : Memory.wf (code [0x32, 0x03, 0x01]).mem = true), rfl, by decide,
    by decide, edge_inv, rfl, rfl, rfl⟩

theorem witness_PairViewsAreComputed :
    (∀ p : StackPair, Reg.a ≠ pairHigh p ∧ Reg.a ≠ pairLow p) ∧
      Reg.b ≠ pairHigh .hl ∧ Reg.b ≠ pairLow .hl := by
  refine ⟨fun p => ?_, by decide, by decide⟩
  cases p <;> decide

theorem witness_MovToMemory :
    edge.Inv ∧ edge.hl = 0xFFFF ∧ edge.sp = 0 := ⟨edge_inv, by decide, rfl⟩

theorem witness_MoveImmediate :
    edge.Inv ∧ edge.hl = 0xFFFF ∧ edge.sp = 0 := ⟨edge_inv, by decide, rfl⟩

theorem witness_StoreAccumulator :
    edge.Inv ∧ edge.hl = 0xFFFF ∧ edge.sp = 0 := ⟨edge_inv, by decide, rfl⟩

theorem witness_StoreAndLoadHlDirect :
    edge.Inv ∧ edge.hl = 0xFFFF ∧ edge.sp = 0 := ⟨edge_inv, by decide, rfl⟩

theorem witness_ExchangesAndSphl :
    edge.Inv ∧ edge.hl = 0xFFFF ∧ edge.sp = 0 := ⟨edge_inv, by decide, rfl⟩

theorem witness_IncrementInstructions :
    edge.Inv ∧ edge.hl = 0xFFFF ∧ edge.sp = 0 := ⟨edge_inv, by decide, rfl⟩

theorem witness_DecrementInstructions :
    edge.Inv ∧ edge.hl = 0xFFFF ∧ edge.sp = 0 := ⟨edge_inv, by decide, rfl⟩

theorem witness_IncrementAndDecrementAreInverse :
    edge.Inv ∧ edge.hl = 0xFFFF ∧ edge.sp = 0 := ⟨edge_inv, by decide, rfl⟩

theorem witness_PushInstructions :
    edge.Inv ∧ edge.hl = 0xFFFF ∧ edge.sp = 0 := ⟨edge_inv, by decide, rfl⟩

theorem witness_PushThenPopRestores :
    edge.Inv ∧ edge.hl = 0xFFFF ∧ edge.sp = 0 := ⟨edge_inv, by decide, rfl⟩

/-- Both clauses of the AC rule. -/
theorem witness_SubtractInstructions :
    edge.params.acsub = .borrow ∧ (notBorrow edge).params.acsub = .notBorrow := by decide

theorem witness_LoadPairImmediate :
    Pair.hl ≠ Pair.sp ∧ Pair.bc ≠ Pair.sp := by decide

theorem witness_PairIncrementAndDecrement :
    Pair.de ≠ Pair.sp ∧ edge.rp .hl = 0xFFFF ∧ edge.rp .de = 0 := by decide

/-- A = 9A takes both corrections, A = 99 none. -/
theorem witness_DecimalAdjust :
    (∃ lo hi low high : Nat, ∃ adjust : Prop, lo = (0x9A : Byte).toNat % 16 ∧
        hi = (0x9A : Byte).toNat / 16 ∧ (adjust ↔ hi > 9 ∨ false = true ∨ (hi ≥ 9 ∧ lo > 9)) ∧
        (lo > 9 ∨ false = true → low = 6) ∧ (¬ (lo > 9 ∨ false = true) → low = 0) ∧
        (adjust → high = 96) ∧ (¬ adjust → high = 0)) ∧
      ∃ lo hi low high : Nat, ∃ adjust : Prop, lo = (0x99 : Byte).toNat % 16 ∧
        hi = (0x99 : Byte).toNat / 16 ∧ (adjust ↔ hi > 9 ∨ false = true ∨ (hi ≥ 9 ∧ lo > 9)) ∧
        (lo > 9 ∨ false = true → low = 6) ∧ (¬ (lo > 9 ∨ false = true) → low = 0) ∧
        (adjust → high = 96) ∧ (¬ adjust → high = 0) := 
  ⟨⟨10, 9, 6, 96, True, by decide⟩, 9, 9, 0, 0, False, by decide⟩

/-- Each predicate holds somewhere and fails somewhere. -/
theorem witness_JumpInstructions :
    ∀ e ∈ conditionalJumps, (∃ f, e.2.2 f = true) ∧ ∃ f, e.2.2 f = false := by
  intro e h
  simp only [conditionalJumps, List.mem_cons, List.not_mem_nil, or_false] at h
  rcases h with rfl | rfl | rfl | rfl | rfl | rfl | rfl | rfl <;>
    first
      | exact ⟨⟨⟨true, true, true, true, true⟩, rfl⟩, ⟨false, false, false, false, false⟩, rfl⟩
      | exact ⟨⟨⟨false, false, false, false, false⟩, rfl⟩, ⟨true, true, true, true, true⟩, rfl⟩

/-- SP at 0 and at 1: the push wraps. -/
theorem witness_CallAndRestart :
    edge.Inv ∧ (calm 1 edge.flags).Inv ∧ edge.sp = 0 ∧ (calm 1 edge.flags).sp = 1 := ⟨edge_inv, calm_inv _ _, rfl, rfl⟩

theorem witness_ConditionalCalls :
    ∀ e ∈ conditionalCalls, (∃ f, (calm 1 f).Inv ∧ e.2.2 f = true) ∧
      ∃ f, (calm 1 f).Inv ∧ e.2.2 f = false := by
  intro e h
  simp only [conditionalCalls, List.mem_cons, List.not_mem_nil, or_false] at h
  rcases h with rfl | rfl | rfl | rfl | rfl | rfl | rfl | rfl <;>
    first
      | exact ⟨⟨⟨true, true, true, true, true⟩, edge_inv, rfl⟩,
          ⟨false, false, false, false, false⟩, edge_inv, rfl⟩
      | exact ⟨⟨⟨false, false, false, false, false⟩, edge_inv, rfl⟩,
          ⟨true, true, true, true, true⟩, edge_inv, rfl⟩

theorem witness_ReturnInstructions :
    ∀ e ∈ conditionalReturns, (∃ f, (calm 1 f).Inv ∧ e.2.2 f = true) ∧
      ∃ f, (calm 1 f).Inv ∧ e.2.2 f = false := by
  intro e h
  simp only [conditionalReturns, List.mem_cons, List.not_mem_nil, or_false] at h
  rcases h with rfl | rfl | rfl | rfl | rfl | rfl | rfl | rfl <;>
    first
      | exact ⟨⟨⟨true, true, true, true, true⟩, edge_inv, rfl⟩,
          ⟨false, false, false, false, false⟩, edge_inv, rfl⟩
      | exact ⟨⟨⟨false, false, false, false, false⟩, edge_inv, rfl⟩,
          ⟨true, true, true, true, true⟩, edge_inv, rfl⟩

theorem witness_InputInstruction :
    ({ edge with devInputs := [0x5A, 0x5B] }).devInputs = 0x5A :: [0x5B] ∧ edge.devInputs = [] := ⟨rfl, rfl⟩

theorem witness_UndocumentedBytesAsDuplicates :
    (undocRuns edge).Inv ∧ (undocRuns edge).params.undoc = .duplicate := ⟨edge_inv, rfl⟩

theorem witness_UndocumentedBytesFail :
    edge.params.undoc = .fault := rfl

/-- SP is 0: the push wraps. -/
theorem witness_InterruptRequest :
    edge.Inv ∧ edge.inte = true ∧ (calm 0 edge.flags).inte = false := ⟨edge_inv, rfl, rfl⟩

theorem witness_SecondInterruptIsIgnoredAndRetResumes :
    edge.Inv ∧ edge.inte = true := ⟨edge_inv, rfl⟩

/-- An image that ends at the last byte, and one that does not fit. -/
theorem witness_LoadCopiesTheImage :
    edge.Inv ∧ 0xFFFF + [(0x5A : Byte)].length ≤ 65536 ∧ [(0x5A : Byte)][0]? = some 0x5A ∧
      65536 < 0xFFFF + [(0x5A : Byte), 0x5B].length := ⟨edge_inv, by decide, rfl, by decide⟩

end Sys2Proof.Tests
end

section
/-! Proofs of the statements of 10_state: the register views, AF, and what a step and a host operation
change of HALTED, INTE, PC and the flags. -/

namespace Sys2Proof

/-! ### Words as pairs of bytes -/

theorem wordOf_and (hi lo hi' lo' : Byte) :
    wordOf hi lo &&& wordOf hi' lo' = wordOf (hi &&& hi') (lo &&& lo') :=
  BitVec.and_append

theorem wordOf_or (hi lo hi' lo' : Byte) :
    wordOf hi lo ||| wordOf hi' lo' = wordOf (hi ||| hi') (lo ||| lo') :=
  BitVec.or_append

theorem getLsbD_loByte (w : Word) {k : Nat} (h : k < 8) : (loByte w).getLsbD k = w.getLsbD k := by
  simp [loByte, h]

/-! ### Lengths and opcode bytes -/

/-- The opcode map gives every byte the length 30_encoding R103 lists for it. -/
theorem decodeOpcode_length :
    ∀ op : Byte, (decodeOpcode op).length = Machine.lengthByOpcode op := by
  decide

end Sys2Proof

namespace Sys2Proof.Machine

theorem State.fetchInstr_opcode (s : State) : s.fetchInstr.opcode = s.opcodeAtPc :=
  s.fetchInstr_spec.1

/-- The fetched instruction is as long as the row of the opcode map it comes from. -/
theorem State.fetchInstr_length (s : State) :
    s.fetchInstr.length = lengthByOpcode s.opcodeAtPc := by
  have hat := decodeOpcode_at s.opcodeAtPc
  rw [← decodeOpcode_length]
  unfold State.opcodeAtPc at hat ⊢
  unfold State.fetchInstr Instr.length encode
  simp only [State.fetch8]
  rcases hr : decodeOpcode (s.readByte s.pc) with i | i | i <;> rw [hr] at hat
  · simp [hat.2.2, Row.length]
  · simp [(hat _).2.2, Row.length]
  · simp [(hat _).2.2, Row.length]

theorem rst_opcode_transfers :
    ∀ n : BitVec 3, 0b11#2 ++ n ++ 0b111#3 ∈ controlTransferOpcodes := by
  decide

theorem undocCall_opcode_transfers :
    ∀ n : BitVec 2, 0b11#2 ++ n ++ 0b1101#4 ∈ controlTransferOpcodes := by
  decide

/-- Every byte of group 10 writes flags: its upper five bits are 10ooo (30_encoding R98). -/
theorem writesFlags_group2 : ∀ (k : BitVec 5) (c : BitVec 3),
    16 ≤ k.toNat → k.toNat < 24 → ¬ writesFlags (k ++ c) = false := by
  decide

/-! ### HALTED, INTE, PC and the flags after an instruction -/

/-- What an instruction that took `s` to `t` left alone: HALTED but for HLT, INTE but for EI and DI,
the sequence of PC but for a transfer, the flags but for a flag-writing opcode byte
(10_state R23, R28, R29, R41). -/
structure ExecFrame (i : Instr) (s t : State) : Prop where
  halted : i ≠ .hlt → t.halted = s.halted
  inte : i ≠ .ei → i ≠ .di → t.inte = s.inte
  pc : i.opcode ∉ controlTransferOpcodes → t.pc = s.pc + BitVec.ofNat 16 i.length
  flags : writesFlags i.opcode = false → t.flags = s.flags

/-- The one case split over the instructions: conditional calls and returns, undocumented bytes,
transfers, flag writers, and the rest. -/
theorem exec_frame {i : Instr} {s t : State} (h : exec i s = .next t) : ExecFrame i s t := by
  cases i
  case cnz | cz | cnc | cc | cpo | cpe | cp | cm | rnz | rz | rnc | rc | rpo | rpe | rp | rm =>
    unfold exec at h
    refine executeIf_elim h (fun _ ht => ?_) (fun _ ht => ?_) <;> cases ht <;>
      exact ⟨by simp, by simp, absurd (by simp only [Instr.opcode]; decide), by simp⟩
  case undocNop =>
    obtain ⟨-, h⟩ := undocumented_next h
    cases h
    exact ⟨by simp, by simp, by simp, by simp⟩
  case undocJmp | undocRet =>
    obtain ⟨-, h⟩ := undocumented_next h
    cases h
    exact ⟨by simp, by simp, absurd (by simp only [Instr.opcode]; decide), by simp⟩
  case undocCall n _ =>
    obtain ⟨-, h⟩ := undocumented_next h
    cases h
    exact ⟨by simp, by simp, absurd (undocCall_opcode_transfers n), by simp⟩
  case jmp | jnz | jz | jnc | jc | jpo | jpe | jp | jm | call | ret | pchl =>
    cases h
    exact ⟨by simp, by simp, absurd (by simp only [Instr.opcode]; decide), by simp⟩
  case rst n =>
    cases h
    exact ⟨by simp, by simp, absurd (rst_opcode_transfers n), by simp⟩
  case add o | adc o | sub o | sbb o | ana o | xra o | ora o | cmp o =>
    cases h
    exact ⟨by simp, by simp, by simp,
      fun hw => absurd hw (writesFlags_group2 _ o.code (by decide) (by decide))⟩
  case inrR r | dcrR r =>
    cases h
    exact ⟨by simp, by simp, by simp, fun hw => absurd hw (by cases r <;> decide)⟩
  case dad p =>
    cases h
    exact ⟨by simp, by simp, by simp, fun hw => absurd hw (by cases p <;> decide)⟩
  case adi | aci | sui | sbi | cpi | ani | xri | ori | inrM | dcrM | daa | rlc | rrc | ral | rar | stc
      | cmc | popPsw =>
    cases h
    exact ⟨by simp, by simp, by simp, fun hw => absurd hw (by simp only [Instr.opcode]; decide)⟩
  all_goals
    cases h
    exact ⟨by simp, by simp, by simp, by simp⟩

theorem exec_ei_inte {s t : State} (h : exec .ei s = .next t) : t.inte = true := by
  cases h; rfl

theorem exec_di_inte {s t : State} (h : exec .di s = .next t) : t.inte = false := by
  cases h; rfl

/-- A step of a halted core changes nothing; a step of a running one executes what it fetched
(70_reset_and_hazards R340, R341). -/
theorem step_next_cases {s t : State} (h : step s = .next t) :
    t = s ∨ s.halted = false ∧ exec s.fetchInstr s = .next t := by
  cases hs : s.halted
  · exact .inr ⟨rfl, step_running hs ▸ h⟩
  · rw [step_halted hs] at h
    exact .inl (by cases h; rfl)

/-! ### Host operations -/

@[simp] theorem State.interrupt_flags (s : State) (target : Word) :
    (s.interrupt target).flags = s.flags := by
  unfold State.interrupt; split <;> rfl

@[simp] theorem State.interrupt_halted (s : State) (target : Word) :
    (s.interrupt target).halted = s.halted := by
  unfold State.interrupt; split <;> rfl

/-- After an interrupt request INTE is 0: it was, or the request was accepted (60_exceptions R307). -/
@[simp] theorem State.interrupt_inte (s : State) (target : Word) :
    (s.interrupt target).inte = false := by
  cases h : s.inte
  · rw [State.interrupt_ignored h, h]
  · rw [State.interrupt_accepted h]; rfl

/-- The host writes no control state but by Reset, an interrupt request and a step
(70_reset_and_hazards R342). -/
theorem State.hostDo_controlKept {s t : State} {op : HostOp} (h : s.hostDo op = .next t)
    (hreset : ∀ v, op ≠ .reset v) (hinterrupt : ∀ target, op ≠ .interrupt target)
    (hstep : op ≠ .step) : s.ControlKept t := by
  cases op with
  | reset v => exact absurd rfl (hreset v)
  | interrupt target => exact absurd rfl (hinterrupt target)
  | step => exact absurd rfl hstep
  | load bytes offset =>
    obtain ⟨-, rfl⟩ := State.hostLoad_next.1 h
    exact ⟨rfl, rfl, rfl⟩
  | _ => cases h; exact ⟨rfl, rfl, rfl⟩

/-! ### The statements -/

/-- Settles O5: the views are computed from the register laws of Laws/State.lean and the byte laws of
Laws/Bits.lean. -/
theorem pairViewsAreComputed : Obligations.PairViewsAreComputed := by
  intro rs w
  refine ⟨⟨rfl, rfl, rfl, rfl, rfl, rfl, rfl⟩, ⟨rfl, rfl, rfl, rfl, rfl, rfl⟩,
    ⟨loByte_toNat w, hiByte_toNat w, wordOf_toNat⟩, fun p => ⟨?_, ?_, ?_, ?_, ?_⟩⟩
  · cases p <;> exact wordOf_toNat _ _
  · rw [Regs.setPair_hi, hiByte_toNat]
  · rw [Regs.setPair_lo, loByte_toNat]
  · cases p <;> exact wordOf_hi_lo w
  · exact fun _ hhi hlo => rs.setPair_other p w hhi hlo

/-- Settles O6: the write masks the low byte as a write to F does, and the high byte not at all. -/
theorem afWriteMasksReservedBits : Obligations.AfWriteMasksReservedBits := by
  intro s w
  refine ⟨?_, hiByte_toNat w, getLsbD_loByte w (by decide), getLsbD_loByte w (by decide),
    getLsbD_loByte w (by decide), getLsbD_loByte w (by decide), getLsbD_loByte w (by decide), ?_⟩
  · rw [State.af, wordOf_toNat, Flags.toByte_toNat]
  · calc (s.setAf w).af
        = wordOf (hiByte w) ((loByte w &&& 0xD5) ||| 0x02) := by
          rw [← Flags.toByte_ofByte]; rfl
      _ = wordOf (hiByte w) (loByte w) &&& wordOf 0xFF 0xD5 ||| wordOf 0 0x02 := by
          have hkept : hiByte w &&& 0xFF ||| 0 = hiByte w :=
            BitVec.or_zero.trans BitVec.and_allOnes
          rw [wordOf_and, wordOf_or, hkept]
      _ = w &&& 0xFFD5 ||| 0x0002 := by rw [wordOf_hi_lo]; rfl

/-- Settles O13: among the instructions HLT alone writes HALTED, among the host's other operations
Reset. -/
theorem onlyHltAndResetWriteHalted : Obligations.OnlyHltAndResetWriteHalted := by
  intro s t op h hne
  cases op with
  | reset v => exact .inr ⟨⟨v, rfl⟩, by cases h; rfl⟩
  | interrupt target => cases h; exact absurd (s.interrupt_halted target) hne
  | step =>
    obtain rfl | ⟨hrun, hexec⟩ := step_next_cases h
    · exact absurd rfl hne
    have hlt : s.fetchInstr = .hlt := by_contra fun hi => hne ((exec_frame hexec).halted hi)
    refine .inl ⟨rfl, hrun, ?_, by simpa [hrun] using hne⟩
    rw [← s.fetchInstr_opcode, hlt]; rfl
  | _ => exact absurd (State.hostDo_controlKept h nofun nofun nofun).1 hne

/-- Settles O14: among the instructions EI and DI alone write INTE, among the host's other operations
an accepted interrupt request and Reset. -/
theorem onlyEiDiInterruptAndResetWriteInte : Obligations.OnlyEiDiInterruptAndResetWriteInte := by
  intro s t op h hne
  cases op with
  | reset v => exact .inr (.inr (.inr ⟨⟨v, rfl⟩, by cases h; rfl⟩))
  | interrupt target =>
    cases h
    have hafter := s.interrupt_inte target
    exact .inr (.inr (.inl ⟨⟨target, rfl⟩, by simpa [hafter] using hne, hafter⟩))
  | step =>
    obtain rfl | ⟨-, hexec⟩ := step_next_cases h
    · exact absurd rfl hne
    rw [← s.fetchInstr_opcode]
    by_cases hei : s.fetchInstr = .ei
    · rw [hei] at hexec ⊢
      exact .inl ⟨rfl, rfl, exec_ei_inte hexec⟩
    by_cases hdi : s.fetchInstr = .di
    · rw [hdi] at hexec ⊢
      exact .inr (.inl ⟨rfl, rfl, exec_di_inte hexec⟩)
    exact absurd ((exec_frame hexec).inte hei hdi) hne
  | _ => exact absurd (State.hostDo_controlKept h nofun nofun nofun).2.1 hne

/-- Settles O19: an instruction that transfers no control leaves PC past its own bytes. -/
theorem stepAdvancesPcByTheLength : Obligations.StepAdvancesPcByTheLength := by
  intro s t hrun h hop
  rw [step_running hrun] at h
  rw [← s.fetchInstr_length]
  exact (exec_frame h).pc (s.fetchInstr_opcode ▸ hop)

/-- Settles O20: the flags are kept by every instruction whose opcode byte is not listed, by a halted
step and by an interrupt request. -/
theorem stepKeepsFlagsElsewhere : Obligations.StepKeepsFlagsElsewhere := by
  intro s t
  refine ⟨fun h hop => ?_, s.interrupt_flags⟩
  obtain rfl | ⟨-, hexec⟩ := step_next_cases h
  · rfl
  · exact (exec_frame hexec).flags (s.fetchInstr_opcode ▸ hop)

end Sys2Proof.Machine
end

section
/-! Proofs of the statements of 20_memory: the canonical form, what a step stores and tells the
device, the next fetch after a store, and Load. -/

namespace Sys2Proof.Machine

/-! ### Canonical memories -/

theorem Memory.read_cons_self (k : Nat) (v : Byte) (rest : Memory) :
    Memory.read ((k, v) :: rest) k = v := by
  simp [Memory.read]

theorem Memory.read_cons_below {a k : Nat} (v : Byte) (rest : Memory) (h : a < k) :
    Memory.read ((k, v) :: rest) a = Memory.unlisted := by
  simp [Memory.read, h]

theorem Memory.read_cons_above {a k : Nat} (v : Byte) (rest : Memory) (h : k < a) :
    Memory.read ((k, v) :: rest) a = Memory.read rest a := by
  simp [Memory.read, show ¬ a < k by omega, show a ≠ k by omega]

/-- The first address a canonical memory lists is not below the first one of a memory that reads
alike: it would read as unlisted there. -/
theorem Memory.first_le_of_read_eq {lo k k' : Nat} {v v' : Byte} {rest rest' : Memory}
    (hm : Memory.wfFrom lo ((k, v) :: rest) = true)
    (hread : ∀ a < 65536, Memory.read ((k, v) :: rest) a = Memory.read ((k', v') :: rest') a) :
    k' ≤ k := by
  obtain ⟨-, hk, hv, -⟩ := Memory.wfFrom_cons.1 hm
  by_contra hlt
  have hfirst := hread k hk
  rw [Memory.read_cons_self, Memory.read_cons_below _ _ (by omega)] at hfirst
  exact hv hfirst

/-- A canonical memory that reads as unlisted everywhere lists nothing. -/
theorem Memory.eq_nil_of_read_unlisted {lo : Nat} {m : Memory} (hm : Memory.wfFrom lo m = true)
    (hread : ∀ a < 65536, Memory.read m a = Memory.unlisted) : m = [] := by
  cases m with
  | nil => rfl
  | cons kv rest =>
    obtain ⟨k, v⟩ := kv
    obtain ⟨-, hk, hv, -⟩ := Memory.wfFrom_cons.1 hm
    exact absurd ((Memory.read_cons_self k v rest).symm.trans (hread k hk)) hv

theorem Memory.eq_of_read_eq {m n : Memory} {lo lo' : Nat} (hm : Memory.wfFrom lo m = true)
    (hn : Memory.wfFrom lo' n = true)
    (hread : ∀ a < 65536, Memory.read m a = Memory.read n a) : m = n := by
  induction m generalizing n lo lo' with
  | nil => exact (Memory.eq_nil_of_read_unlisted hn fun a ha => (hread a ha).symm).symm
  | cons kv rest ih =>
    obtain ⟨k, v⟩ := kv
    cases n with
    | nil => exact Memory.eq_nil_of_read_unlisted hm hread
    | cons kv' rest' =>
      obtain ⟨k', v'⟩ := kv'
      obtain rfl : k = k' := Nat.le_antisymm
        (Memory.first_le_of_read_eq hn fun a ha => (hread a ha).symm)
        (Memory.first_le_of_read_eq hm hread)
      obtain ⟨-, hk, -, hrest⟩ := Memory.wfFrom_cons.1 hm
      obtain ⟨-, -, -, hrest'⟩ := Memory.wfFrom_cons.1 hn
      obtain rfl : v = v' := by simpa only [Memory.read_cons_self] using hread k hk
      have htail : ∀ a < 65536, Memory.read rest a = Memory.read rest' a := by
        intro a ha
        rcases Nat.lt_or_ge k a with hka | hak
        · simpa only [Memory.read_cons_above _ _ hka] using hread a ha
        · rw [Memory.read_below hrest (by omega), Memory.read_below hrest' (by omega)]
      rw [ih hrest hrest' htail]

/-! ### Load -/

/-- Load changes no address outside the image (20_memory R75). -/
theorem Memory.read_load_outside {m : Memory} {offset a : Nat} {bytes : List Byte}
    (hm : Memory.wf m = true) (hfit : offset + bytes.length ≤ 65536)
    (ha : a < offset ∨ offset + bytes.length ≤ a) :
    Memory.read (Memory.load m offset bytes) a = Memory.read m a := by
  induction bytes generalizing m offset with
  | nil => rfl
  | cons v rest ih =>
    simp only [List.length_cons] at hfit ha
    rw [Memory.load, ih (Memory.wf_write hm (by omega)) (by omega) (by omega),
      Memory.read_write_other hm (by omega)]

/-- Load puts byte `i` of the image at `offset + i` (20_memory R75). -/
theorem Memory.read_load_inside {m : Memory} {offset i : Nat} {v : Byte} {bytes : List Byte}
    (hm : Memory.wf m = true) (hfit : offset + bytes.length ≤ 65536) (hi : bytes[i]? = some v) :
    Memory.read (Memory.load m offset bytes) (offset + i) = v := by
  induction bytes generalizing m offset i with
  | nil => simp at hi
  | cons b rest ih =>
    simp only [List.length_cons] at hfit
    have hwrite : Memory.wf (Memory.write m offset b) = true := Memory.wf_write hm (by omega)
    rw [Memory.load]
    cases i with
    | zero =>
      obtain rfl : b = v := by simpa using hi
      rw [Memory.read_load_outside hwrite (by omega) (by omega)]
      exact Memory.read_write_same hm
    | succ j =>
      rw [show offset + (j + 1) = offset + 1 + j by omega]
      exact ih hwrite (by omega) (by simpa using hi)

theorem State.hostLoad_fault {s : State} {bytes : List Byte} {offset : Nat}
    (h : 65536 < offset + bytes.length) : s.hostLoad bytes offset = .fault .outOfRange :=
  if_pos h

/-! ### What an instruction stores, and what it tells the device -/

/-- The memory of `t` is that of `s` after one MemWrite, of a byte or of a word (20_memory R62,
R64). -/
def State.StoredOnce (s t : State) : Prop :=
  (∃ a v, t.mem = (s.writeByte a v).mem) ∨ ∃ a w, t.mem = (s.writeWord a w).mem

theorem State.StoredOnce.inv {s t : State} (h : s.StoredOnce t) (hs : s.Inv) : t.Inv := by
  unfold State.Inv
  rcases h with ⟨a, v, hmem⟩ | ⟨a, w, hmem⟩ <;> rw [hmem]
  · exact State.wf_writeByte hs a v
  · exact State.wf_writeWord hs a w

theorem rst_mayStore : ∀ n : BitVec 3, mayStore (0b11#2 ++ n ++ 0b111#3) = true := by
  decide

theorem undocCall_mayStore : ∀ n : BitVec 2, mayStore (0b11#2 ++ n ++ 0b1101#4) = true := by
  decide

/-- The one case split over what instructions do to memory: none but those of the data-write rows of
20_memory R74 stores, and each of these stores one byte or one word. -/
theorem exec_mem_cases {i : Instr} {s t : State} (h : exec i s = .next t) :
    t.mem = s.mem ∨ mayStore i.opcode = true ∧ s.StoredOnce t := by
  cases i
  case cnz | cz | cnc | cc | cpo | cpe | cp | cm =>
    unfold exec at h
    refine executeIf_elim h (fun _ ht => ?_) (fun _ ht => ?_) <;> cases ht
    · exact .inr ⟨by simp only [Instr.opcode]; decide, .inr ⟨_, _, rfl⟩⟩
    · exact .inl rfl
  case rnz | rz | rnc | rc | rpo | rpe | rp | rm =>
    unfold exec at h
    refine executeIf_elim h (fun _ ht => ?_) (fun _ ht => ?_) <;> cases ht <;> exact .inl rfl
  case undocNop | undocJmp | undocRet =>
    obtain ⟨-, h⟩ := undocumented_next h
    cases h
    exact .inl rfl
  case undocCall n _ =>
    obtain ⟨-, h⟩ := undocumented_next h
    cases h
    exact .inr ⟨undocCall_mayStore n, .inr ⟨_, _, rfl⟩⟩
  case rst n =>
    cases h
    exact .inr ⟨rst_mayStore n, .inr ⟨_, _, rfl⟩⟩
  case push p =>
    cases h
    exact .inr ⟨by cases p <;> decide, .inr ⟨_, _, rfl⟩⟩
  case call | pushPsw | shld | xthl =>
    cases h
    exact .inr ⟨by simp only [Instr.opcode]; decide, .inr ⟨_, _, rfl⟩⟩
  case movMR src =>
    cases h
    exact .inr ⟨by cases src <;> decide, .inl ⟨_, _, rfl⟩⟩
  case stax p =>
    cases h
    exact .inr ⟨by cases p <;> decide, .inl ⟨_, _, rfl⟩⟩
  case mviM | sta | inrM | dcrM =>
    cases h
    exact .inr ⟨by simp only [Instr.opcode]; decide, .inl ⟨_, _, rfl⟩⟩
  all_goals
    cases h
    exact .inl (by simp)

/-- Every instruction but IN and OUT leaves the device boundary alone (20_memory R73). -/
theorem exec_deviceKept {i : Instr} {s t : State} (h : exec i s = .next t)
    (hin : ∀ p, i ≠ .inp p) (hout : ∀ p, i ≠ .outp p) : s.DeviceKept t := by
  cases i
  case inp p => exact absurd rfl (hin p)
  case outp p => exact absurd rfl (hout p)
  case cnz | cz | cnc | cc | cpo | cpe | cp | cm | rnz | rz | rnc | rc | rpo | rpe | rp | rm =>
    unfold exec at h
    refine executeIf_elim h (fun _ ht => ?_) (fun _ ht => ?_) <;> cases ht <;>
      exact ⟨by simp, by simp, by simp⟩
  case undocNop | undocJmp | undocRet | undocCall =>
    obtain ⟨-, h⟩ := undocumented_next h
    cases h
    exact ⟨by simp, by simp, by simp⟩
  all_goals
    cases h
    exact ⟨by simp, by simp, by simp⟩

theorem exec_inp_events {s t : State} {p : Byte} (h : exec (.inp p) s = .next t) :
    ∃ v, t.events = s.events ++ [.input p v] := by
  cases h
  exact ⟨_, State.devIn_events _ p⟩

theorem exec_outp_events {s t : State} {p : Byte} (h : exec (.outp p) s = .next t) :
    t.events = s.events ++ [.output p s.regs.a] := by
  cases h
  rfl

/-! ### Fetching -/

theorem State.fetchInstr_f2 {s : State} {i : Byte → Instr}
    (h : decodeOpcode s.opcodeAtPc = .f2 i) : s.fetchInstr = i (s.readByte (s.pc + 1)) :=
  State.fetchInstr_of_decode (decode_f2 h _ _)

theorem State.fetchInstr_f3 {s : State} {i : Word → Instr}
    (h : decodeOpcode s.opcodeAtPc = .f3 i) :
    s.fetchInstr = i (wordOf (s.readByte (s.pc + 1 + 1)) (s.readByte (s.pc + 1))) :=
  State.fetchInstr_of_decode (decode_f3 h _ _ _)

/-! ### A byte stored is the byte read back -/

theorem State.readByte_of_mem_writeByte {s t : State} {a : Word} {v : Byte} (hs : s.Inv)
    (h : t.mem = (s.writeByte a v).mem) : t.readByte a = v :=
  (State.readByte_congr h a).trans (State.readByte_writeByte_same hs a v)

theorem State.readByte_low_of_mem_writeWord {s t : State} {a w : Word} {v : Byte} (hs : s.Inv)
    (h : t.mem = (s.writeWord a w).mem) (hv : loByte w = v) : t.readByte a = v :=
  ((State.readByte_congr h a).trans (State.readByte_writeWord_lo hs a w)).trans hv

theorem State.readByte_high_of_mem_writeWord {s t : State} {a w : Word} {v : Byte} (hs : s.Inv)
    (h : t.mem = (s.writeWord a w).mem) (hv : hiByte w = v) : t.readByte (a + 1) = v :=
  ((State.readByte_congr h (a + 1)).trans (State.readByte_writeWord_hi hs a w)).trans hv

theorem Regs.loByte_pair (rs : Regs) (p : StackPair) :
    loByte (rs.pair p) = rs.get (pairLow p) := by
  cases p <;> exact loByte_wordOf _ _

theorem Regs.hiByte_pair (rs : Regs) (p : StackPair) :
    hiByte (rs.pair p) = rs.get (pairHigh p) := by
  cases p <;> exact hiByte_wordOf _ _

/-- Each listed conditional CALL is three bytes long and calls where the condition its mnemonic
names holds, which is the predicate listed with it (30_encoding R97, 43_branch R234). -/
theorem conditionalCalls_exec {e : Byte × (Word → Instr) × (Flags → Bool)}
    (listed : e ∈ conditionalCalls) :
    ∃ k : Cond, (∀ f, f.cond k = e.2.2 f) ∧ ∀ addr s, (e.2.1 addr).length = 3 ∧
      exec (e.2.1 addr) s = executeIf (e.2.1 addr) k s fun s => s.callTo addr := by
  simp only [conditionalCalls, List.mem_cons, List.not_mem_nil, or_false] at listed
  rcases listed with rfl | rfl | rfl | rfl | rfl | rfl | rfl | rfl
  · exact ⟨.nz, fun _ => rfl, fun _ _ => ⟨rfl, rfl⟩⟩
  · exact ⟨.z, fun _ => rfl, fun _ _ => ⟨rfl, rfl⟩⟩
  · exact ⟨.nc, fun _ => rfl, fun _ _ => ⟨rfl, rfl⟩⟩
  · exact ⟨.c, fun _ => rfl, fun _ _ => ⟨rfl, rfl⟩⟩
  · exact ⟨.po, fun _ => rfl, fun _ _ => ⟨rfl, rfl⟩⟩
  · exact ⟨.pe, fun _ => rfl, fun _ _ => ⟨rfl, rfl⟩⟩
  · exact ⟨.p, fun _ => rfl, fun _ _ => ⟨rfl, rfl⟩⟩
  · exact ⟨.m, fun _ => rfl, fun _ _ => ⟨rfl, rfl⟩⟩

/-- A conditional CALL whose predicate holds pushes the address past its three bytes
(43_branch R234). -/
theorem exec_condCall_taken {s : State} {e : Byte × (Word → Instr) × (Flags → Bool)}
    (listed : e ∈ conditionalCalls) (taken : e.2.2 s.flags = true) (addr : Word) :
    ∃ t, exec (e.2.1 addr) s = .next t ∧ t.mem = (s.writeWord (s.sp - 2) (s.pc + 3)).mem := by
  obtain ⟨k, hk, hexec⟩ := conditionalCalls_exec listed
  obtain ⟨hlength, hexec⟩ := hexec addr s
  refine ⟨_, hexec.trans (executeIf_taken ((hk s.flags).trans taken) _ _), ?_⟩
  simp [hlength]

theorem exec_undocCall_duplicate {s : State} (runs : s.params.undoc = .duplicate) (n : BitVec 2)
    (addr : Word) :
    ∃ t, exec (.undocCall n addr) s = .next t ∧
      t.mem = (s.writeWord (s.sp - 2) (s.pc + 3)).mem :=
  ⟨_, undocumented_duplicate runs _ _, rfl⟩

/-- Every storing instruction completes, and each byte it stores is read back at its address. -/
theorem exec_of_stores {s : State} {i : Instr} {a : Word} {v : Byte} (hs : s.Inv)
    (h : s.Stores i a v) : ∃ t, exec i s = .next t ∧ t.readByte a = v := by
  cases h with
  | movMR | mviM | staxBc | staxDe | sta =>
    exact ⟨_, rfl, State.readByte_of_mem_writeByte hs rfl⟩
  | inrM v h =>
    obtain rfl : (inc8 (s.readByte s.hl) s.flags).1 = v :=
      BitVec.eq_of_toNat_eq ((inc8_gives _ _).1.trans h.symm)
    exact ⟨_, rfl, State.readByte_of_mem_writeByte hs rfl⟩
  | dcrM v h =>
    obtain rfl : (dec8 s.params.acsub (s.readByte s.hl) s.flags).1 = v :=
      BitVec.eq_of_toNat_eq ((dec8_gives _ _ _).1.trans h.symm)
    exact ⟨_, rfl, State.readByte_of_mem_writeByte hs rfl⟩
  | shldLow | xthlLow =>
    exact ⟨_, rfl, State.readByte_low_of_mem_writeWord hs rfl (loByte_wordOf _ _)⟩
  | shldHigh | xthlHigh =>
    exact ⟨_, rfl, State.readByte_high_of_mem_writeWord hs rfl (hiByte_wordOf _ _)⟩
  | pushLow p =>
    exact ⟨_, rfl, State.readByte_low_of_mem_writeWord hs rfl (s.regs.loByte_pair p)⟩
  | pushHigh p =>
    exact ⟨_, rfl, State.readByte_high_of_mem_writeWord hs rfl (s.regs.hiByte_pair p)⟩
  | pushPswLow v h =>
    obtain rfl : s.flags.toByte = v :=
      BitVec.eq_of_toNat_eq (s.flags.toByte_toNat.trans h.symm)
    exact ⟨_, rfl, State.readByte_low_of_mem_writeWord hs rfl (loByte_wordOf _ _)⟩
  | pushPswHigh =>
    exact ⟨_, rfl, State.readByte_high_of_mem_writeWord hs rfl (hiByte_wordOf _ _)⟩
  | callLow | rstLow => exact ⟨_, rfl, State.readByte_low_of_mem_writeWord hs rfl rfl⟩
  | callHigh | rstHigh => exact ⟨_, rfl, State.readByte_high_of_mem_writeWord hs rfl rfl⟩
  | condCallLow e listed taken addr =>
    obtain ⟨t, ht, hmem⟩ := exec_condCall_taken listed taken addr
    exact ⟨t, ht, State.readByte_low_of_mem_writeWord hs hmem rfl⟩
  | condCallHigh e listed taken addr =>
    obtain ⟨t, ht, hmem⟩ := exec_condCall_taken listed taken addr
    exact ⟨t, ht, State.readByte_high_of_mem_writeWord hs hmem rfl⟩
  | undocCallLow runs n addr =>
    obtain ⟨t, ht, hmem⟩ := exec_undocCall_duplicate runs n addr
    exact ⟨t, ht, State.readByte_low_of_mem_writeWord hs hmem rfl⟩
  | undocCallHigh runs n addr =>
    obtain ⟨t, ht, hmem⟩ := exec_undocCall_duplicate runs n addr
    exact ⟨t, ht, State.readByte_high_of_mem_writeWord hs hmem rfl⟩

/-- Where PC is at an address, the instruction fetched has the byte read there as its opcode
byte. -/
theorem State.fetchInstr_opcode_at {t : State} {a : Word} {v : Byte} (hread : t.readByte a = v)
    (hpc : t.pc = a) : t.fetchInstr.opcode = v := by
  rw [State.fetchInstr_opcode, State.opcodeAtPc, hpc, hread]

theorem State.interrupt_pc {s : State} (h : s.inte = true) (target : Word) :
    (s.interrupt target).pc = target := by
  rw [State.interrupt_accepted h]; rfl

/-- An accepted interrupt request pushes PC (60_exceptions R307). -/
theorem State.interrupt_wordAt {s : State} (hs : s.Inv) (h : s.inte = true) (target : Word) :
    (s.interrupt target).WordAt (s.sp - 2) s.pc := by
  unfold State.WordAt
  rw [State.interrupt_readByte h, State.interrupt_readByte h]
  exact ⟨State.push_lo hs s.pc, State.push_hi hs s.pc⟩

/-! ### The statements -/

/-- Settles O9: whatever a step stores, it stores with MemWrite, which keeps the canonical form. -/
theorem stepKeepsMemoryCanonical : Obligations.StepKeepsMemoryCanonical := by
  intro s t hs h
  obtain rfl | ⟨-, hexec⟩ := step_next_cases h
  · exact hs
  obtain hkept | ⟨-, hstored⟩ := exec_mem_cases hexec
  · unfold State.Inv
    rwa [hkept]
  · exact hstored.inv hs

/-- Settles O12: by induction on the first memory, the two list the same first address. -/
theorem canonicalMemoriesThatReadAlikeAreEqual :
    Obligations.CanonicalMemoriesThatReadAlikeAreEqual := by
  intro m n hm hn hread
  exact Memory.eq_of_read_eq hm hn fun a ha => by
    simpa [Nat.mod_eq_of_lt ha] using hread (BitVec.ofNat 16 a)

/-- Settles O16: the fetch at DB and D3 is IN and OUT with the second byte as the port, and no other
instruction has one of these opcode bytes. -/
theorem stepTouchesDevicesOnlyByInAndOut : Obligations.StepTouchesDevicesOnlyByInAndOut := by
  intro s t hrun h
  rw [step_running hrun] at h
  refine ⟨fun hop => ?_, fun hop => ?_, fun hin hout => ?_⟩
  · rw [State.fetchInstr_f2 (i := .inp) (by rw [hop]; rfl)] at h
    exact exec_inp_events h
  · rw [State.fetchInstr_f2 (i := .outp) (by rw [hop]; rfl)] at h
    exact exec_outp_events h
  · rw [← s.fetchInstr_opcode] at hin hout
    exact exec_deviceKept h (fun p hp => hin (by rw [hp]; rfl)) (fun p hp => hout (by rw [hp]; rfl))

/-- Settles O21: a step of an opcode byte outside the data-write rows leaves the memory itself as it
was. -/
theorem stepKeepsMemoryElsewhere : Obligations.StepKeepsMemoryElsewhere := by
  intro s t h hop a _
  obtain rfl | ⟨-, hexec⟩ := step_next_cases h
  · rfl
  obtain hkept | ⟨hstores, -⟩ := exec_mem_cases hexec
  · exact State.readByte_congr hkept a
  · rw [s.fetchInstr_opcode, hop] at hstores
    exact absurd hstores Bool.false_ne_true

/-- Settles O22: a store is read back at its address, and the next fetch is such a read. -/
theorem storeIsSeenByTheNextFetch : Obligations.StoreIsSeenByTheNextFetch := by
  intro s hs
  refine ⟨fun hrun i rest a v hdecode hstores => ?_, fun hrun hop haddr => ?_,
    fun target hinte => ?_⟩
  · obtain ⟨t, ht, hread⟩ := exec_of_stores hs hstores
    have hfetch : s.fetchInstr = i :=
      State.fetchInstr_of_decode (r := rest) (by rwa [BitVec.add_assoc])
    exact ⟨t, by rw [step_running hrun, hfetch, ht], hread, State.fetchInstr_opcode_at hread⟩
  · have hfetch : s.fetchInstr = .sta (s.pc + 3) := by
      rw [State.fetchInstr_f3 (i := .sta) (by rw [hop]; rfl), BitVec.add_assoc]
      exact congrArg Instr.sta haddr
    obtain ⟨t, ht, hread⟩ := exec_of_stores hs (.sta (s.pc + 3))
    have hpc : t.pc = s.pc + 3 := by cases ht; rfl
    exact ⟨t, by rw [step_running hrun, hfetch, ht], hpc, State.fetchInstr_opcode_at hread hpc⟩
  · obtain ⟨hlow, hhigh⟩ := State.interrupt_wordAt hs hinte target
    have hpc := State.interrupt_pc hinte target
    exact ⟨⟨hlow, hhigh⟩, fun h => State.fetchInstr_opcode_at hlow (hpc.trans h),
      fun h => State.fetchInstr_opcode_at hhigh (hpc.trans h)⟩

/-- Settles O59: by induction on the image, each store keeps what the earlier ones put below it. -/
theorem loadCopiesTheImage : Obligations.LoadCopiesTheImage := by
  intro s bytes offset
  refine ⟨fun hs hfit => ⟨_, State.hostLoad_next.2 ⟨hfit, rfl⟩, ?_, ?_, rfl⟩, State.hostLoad_fault⟩
  · exact fun _ _ hi => Memory.read_load_inside hs hfit hi
  · exact fun _ ha => Memory.read_load_outside hs hfit ha

end Sys2Proof.Machine
end

section
/-! Proofs of the statements of 30_encoding: the decoder and the encoder undo each other, the opcode
byte decides the length, and the undocumented bytes run as what they duplicate. -/

namespace Sys2Proof

/-! ### What a row of the opcode map reads -/

/-- A row of the opcode map reads the instruction `i` from the operand bytes `bs`, a word low byte
first (30_encoding R91). -/
def Row.Reads (i : Instr) (bs : List Byte) : Row → Prop
  | .f1 j => j = i ∧ bs = []
  | .f2 j => ∃ v, j v = i ∧ bs = [v]
  | .f3 j => ∃ w, j w = i ∧ bs = [loByte w, hiByte w]

/-- A row reads as many operand bytes as its length leaves after the opcode byte. -/
theorem Row.Reads.length {row : Row} {i : Instr} {bs : List Byte} (h : row.Reads i bs) :
    bs.length + 1 = row.length := by
  cases row with
  | f1 j => obtain ⟨-, rfl⟩ := h; rfl
  | f2 j => obtain ⟨v, -, rfl⟩ := h; rfl
  | f3 j => obtain ⟨w, -, rfl⟩ := h; rfl

/-- What the row at an opcode byte reads is well-formed and has that opcode byte and the operand bytes
read. -/
theorem Row.At.of_reads {op : Byte} {row : Row} {i : Instr} {bs : List Byte} (hat : row.At op)
    (h : row.Reads i bs) : i.opcode = op ∧ i.wf = true ∧ i.operands = bs := by
  cases row with
  | f1 j => obtain ⟨rfl, rfl⟩ := h; exact hat
  | f2 j => obtain ⟨v, rfl, rfl⟩ := h; exact hat v
  | f3 j => obtain ⟨w, rfl, rfl⟩ := h; exact hat w

/-- The decoder is the opcode map: it answers what the row of the first byte reads, and leaves the
rest (30_encoding R90, R111). -/
theorem decode_cons_eq_ok_iff {op : Byte} {tail rest : List Byte} {i : Instr} :
    decode (op :: tail) = .ok (i, rest) ↔
      ∃ bs, (decodeOpcode op).Reads i bs ∧ tail = bs ++ rest := by
  constructor
  · intro h
    cases hrow : decodeOpcode op with
    | f1 j =>
      rw [decode_f1 hrow] at h
      cases h
      exact ⟨[], ⟨rfl, rfl⟩, rfl⟩
    | f2 j =>
      rcases tail with _ | ⟨v, tail⟩
      · simp [decode, hrow] at h
      · rw [decode_f2 hrow] at h
        cases h
        exact ⟨[v], ⟨v, rfl, rfl⟩, rfl⟩
    | f3 j =>
      rcases tail with _ | ⟨lo, _ | ⟨hi, tail⟩⟩
      · simp [decode, hrow] at h
      · simp [decode, hrow] at h
      · rw [decode_f3 hrow] at h
        cases h
        exact ⟨[lo, hi], ⟨wordOf hi lo, rfl, by simp⟩, rfl⟩
  · rintro ⟨bs, hreads, rfl⟩
    cases hrow : decodeOpcode op with rw [hrow] at hreads
    | f1 j => obtain ⟨rfl, rfl⟩ := hreads; exact decode_f1 hrow rest
    | f2 j => obtain ⟨v, rfl, rfl⟩ := hreads; exact decode_f2 hrow v rest
    | f3 j =>
      obtain ⟨w, rfl, rfl⟩ := hreads
      simpa using decode_f3 hrow (loByte w) (hiByte w) rest

/-- What the decoder reads behind an opcode byte is well-formed and has that opcode byte, the operand
bytes that stand there, and the length of the byte's row. -/
theorem of_decode_cons {op : Byte} {tail rest : List Byte} {i : Instr}
    (h : decode (op :: tail) = .ok (i, rest)) :
    i.opcode = op ∧ i.wf = true ∧ tail = i.operands ++ rest ∧
      i.length = (decodeOpcode op).length := by
  obtain ⟨bs, hreads, rfl⟩ := decode_cons_eq_ok_iff.1 h
  obtain ⟨hop, hwf, rfl⟩ := (decodeOpcode_at op).of_reads hreads
  exact ⟨hop, hwf, rfl, hreads.length⟩

/-! ### The row at the opcode byte of a well-formed instruction -/

theorem groupField_append (g : BitVec 2) (y z : BitVec 3) : groupField (g ++ y ++ z) = g := by
  revert g y z; decide

theorem dddField_append (g : BitVec 2) (y z : BitVec 3) : dddField (g ++ y ++ z) = y := by
  revert g y z; decide

theorem sssField_append (g : BitVec 2) (y z : BitVec 3) : sssField (g ++ y ++ z) = z := by
  revert g y z; decide

/-- A register selector names the operand whose code it is (30_encoding R95). -/
theorem Operand.ofCode_code (o : Operand) : Operand.ofCode o.code = o := by
  rcases o with r | _
  · cases r <;> rfl
  · rfl

/-- The bytes 11nnn111 are RST n (30_encoding R104). -/
theorem decodeOpcode_rst (n : BitVec 3) :
    decodeOpcode (0b11#2 ++ n ++ 0b111#3) = .f1 (.rst n) := by
  simp only [decodeOpcode, groupField_append, decodeGroup3, sssField_append, dddField_append]

/-- The bytes 00nnn000 but 00 are the duplicates of NOP (30_encoding R105). -/
theorem decodeOpcode_undocNop {n : BitVec 3} (h : n ≠ 0) :
    decodeOpcode (0b00#2 ++ n ++ 0b000#3) = .f1 (.undocNop n) := by
  simp only [decodeOpcode, groupField_append, decodeGroup0, sssField_append, dddField_append,
    if_neg h]

/-- The bytes 11nn1101 but CD are the duplicates of CALL (30_encoding R105). -/
theorem decodeOpcode_undocCall {n : BitVec 2} (h : n ≠ 0) :
    decodeOpcode (0b11#2 ++ n ++ 0b1101#4) = .f3 (.undocCall n) :=
  match n with
  | 0 => absurd rfl h
  | 1 => rfl
  | 2 => rfl
  | 3 => rfl

/-- The row at the opcode byte of a well-formed instruction reads the instruction from its own
operand bytes: the one case split over the instructions, by their selectors and their format. -/
theorem decodeOpcode_opcode_reads {i : Instr} (h : i.wf = true) :
    (decodeOpcode i.opcode).Reads i i.operands := by
  cases i
  case movRR dst src => cases dst <;> cases src <;> exact ⟨rfl, rfl⟩
  case movRM r | movMR r | inrR r | dcrR r => cases r <;> exact ⟨rfl, rfl⟩
  case mviR r v => simp only [Instr.opcode]; cases r <;> exact ⟨v, rfl, rfl⟩
  case lxi p w => simp only [Instr.opcode]; cases p <;> exact ⟨w, rfl, rfl⟩
  case stax p | ldax p | inx p | dcx p | dad p | push p | pop p => cases p <;> exact ⟨rfl, rfl⟩
  case add o | adc o | sub o | sbb o | cmp o | ana o | xra o | ora o =>
    rcases o with r | _
    · cases r <;> exact ⟨rfl, rfl⟩
    · exact ⟨rfl, rfl⟩
  case mviM v | adi v | aci v | sui v | sbi v | cpi v | ani v | xri v | ori v | inp v | outp v =>
    simp only [Instr.opcode]; exact ⟨v, rfl, rfl⟩
  case sta w | lda w | shld w | lhld w | jmp w | jnz w | jz w | jnc w | jc w | jpo w | jpe w | jp w
      | jm w | call w | cnz w | cz w | cnc w | cc w | cpo w | cpe w | cp w | cm w | undocJmp w =>
    simp only [Instr.opcode]; exact ⟨w, rfl, rfl⟩
  case rst n => rw [Instr.opcode, decodeOpcode_rst]; exact ⟨rfl, rfl⟩
  case undocNop n =>
    rw [Instr.opcode, decodeOpcode_undocNop (bne_iff_ne.1 h)]; exact ⟨rfl, rfl⟩
  case undocCall n w =>
    rw [Instr.opcode, decodeOpcode_undocCall (bne_iff_ne.1 h)]; exact ⟨w, rfl, rfl⟩
  all_goals exact ⟨rfl, rfl⟩

/-- Decoding the bytes of a well-formed instruction gives it back. -/
theorem decode_encode_append {i : Instr} (h : i.wf = true) (rest : List Byte) :
    decode (encode i ++ rest) = .ok (i, rest) :=
  decode_cons_eq_ok_iff.2 ⟨i.operands, decodeOpcode_opcode_reads h, rfl⟩

end Sys2Proof

namespace Sys2Proof.Machine

/-! ### A word stored -/

/-- A word stored with MemWrite lies at its address (20_memory R64). -/
theorem State.wordAt_of_mem_writeWord {s t : State} {a w : Word} (hs : s.Inv)
    (h : t.mem = (s.writeWord a w).mem) : t.WordAt a w :=
  ⟨State.readByte_low_of_mem_writeWord hs h rfl, State.readByte_high_of_mem_writeWord hs h rfl⟩

/-- A word stored with MemWrite changes no byte but its own two (20_memory R64). -/
theorem State.memKept_of_mem_writeWord {s t : State} {a w : Word} (hs : s.Inv)
    (h : t.mem = (s.writeWord a w).mem) : s.MemKept t [a, a + 1] := by
  intro b hb
  simp only [List.mem_cons, List.not_mem_nil, or_false, not_or] at hb
  exact (State.readByte_congr h b).trans (State.readByte_writeWord_other hs w hb.1 hb.2)

/-! ### What moving PC, returning and calling leave alone -/

theorem State.outside_past_retire {s t : State} {i : Instr} {n : Nat} {regs : List Reg}
    {mem : List Word} (h : (s.past i).Outside t regs mem) : s.Outside (t.retire i n) regs mem :=
  h

theorem State.outside_refl (s : State) : s.Outside s [] [] :=
  ⟨fun _ _ => rfl, fun _ _ => rfl, ⟨rfl, rfl, rfl⟩, ⟨rfl, rfl, rfl⟩⟩

theorem State.outside_jump (s : State) (addr : Word) : s.Outside (s.jump addr) [] [] :=
  s.outside_refl

theorem State.outside_popPc (s : State) : s.Outside s.popPc [] [] :=
  s.outside_refl

/-- A call changes the two bytes of the return address (43_branch R233). -/
theorem State.outside_callTo {s : State} (hs : s.Inv) (addr : Word) :
    s.Outside (s.callTo addr) [] [s.sp - 2, s.sp - 2 + 1] :=
  ⟨fun _ _ => rfl, State.memKept_of_mem_writeWord hs rfl, ⟨rfl, rfl, rfl⟩, ⟨rfl, rfl, rfl⟩⟩

theorem State.readWord_toNat (s : State) (a : Word) :
    (s.readWord a).toNat = (s.readByte a).toNat + 256 * (s.readByte (a + 1)).toNat := by
  rw [State.readWord, wordOf_toNat]
  omega

/-! ### The statements -/

/-- Settles O1: each byte's row of the opcode map, and the operand byte read by it. -/
theorem attestedOpcodeBytesDecode : Obligations.AttestedOpcodeBytesDecode :=
  ⟨decode_f2 rfl _ _, decode_f2 rfl _ _, decode_f2 rfl _ _, decode_f1 rfl _, decode_f1 rfl _,
    decode_f1 rfl _⟩

/-- Settles O2: the row at the opcode byte of a well-formed instruction reads that instruction. -/
theorem decodeOfEncode : Obligations.DecodeOfEncode :=
  ⟨fun _ rest h => decode_encode_append h rest,
    ⟨rfl, rfl, rfl, rfl, rfl, rfl, rfl, rfl, fun _ => rfl⟩, ⟨rfl, rfl, rfl, rfl⟩,
    ⟨rfl, rfl, rfl, rfl, rfl⟩, rfl, rfl⟩

/-- Settles O3: every row of the opcode map stands at the opcode byte of what it reads. -/
theorem encodeOfDecode : Obligations.EncodeOfDecode := by
  intro bytes i rest h
  cases bytes with
  | nil => cases h
  | cons op tail =>
    obtain ⟨rfl, hwf, rfl, -⟩ := of_decode_cons h
    exact ⟨hwf, rfl⟩

/-- Settles O4: three bytes suffice for every row, and the row has the length listed for its byte. -/
theorem opcodeByteDecidesLength : Obligations.OpcodeByteDecidesLength := by
  intro op x y rest
  obtain ⟨i, r, h⟩ := decode_three_ok op x y rest
  obtain ⟨hop, -, -, hlength⟩ := of_decode_cons h
  exact ⟨i, r, h, hop, hlength.trans (decodeOpcode_length op)⟩

/-- Settles O55: under `UNDOC` = duplicate each of the four kinds runs the duplicated instruction's
operation, of which only that of CALL stores. -/
theorem undocumentedBytesAsDuplicates : Obligations.UndocumentedBytesAsDuplicates := by
  intro s hs hdup
  refine ⟨fun n => ⟨rfl, _, undocumented_duplicate hdup _ _, ?_, rfl, rfl, rfl, rfl⟩,
    fun addr => ⟨rfl, _, undocumented_duplicate hdup _ _, rfl, ?_, rfl, rfl, rfl⟩,
    ⟨rfl, _, undocumented_duplicate hdup _ _, ?_, rfl, ?_, rfl, rfl⟩,
    fun n addr => ⟨rfl, _, undocumented_duplicate hdup _ _, rfl, rfl, ?_, ?_, rfl, rfl⟩⟩
  · exact State.outside_past_retire (State.outside_refl _)
  · exact State.outside_past_retire (State.outside_jump _ addr)
  · exact s.readWord_toNat s.sp
  · exact State.outside_past_retire (State.outside_popPc _)
  · exact State.wordAt_of_mem_writeWord hs rfl
  · exact State.outside_past_retire (State.outside_callTo (s := s.past _) hs addr)

end Sys2Proof.Machine
end

section
/-! Proofs of the statements of 40_data_transfer: what each move, load, store and exchange writes,
and that it changes nothing else. -/

namespace Sys2Proof.Machine

/-! ### What the writes to registers and memory leave alone -/

/-- A write to a register changes no other item (10_state R21). -/
theorem State.outside_setReg (s : State) (r : Reg) (v : Byte) :
    s.Outside (s.setReg r v) [r] [] :=
  ⟨fun _ hq => s.regs.get_set_other v (List.ne_of_not_mem_cons hq), fun _ _ => rfl,
    ⟨rfl, rfl, rfl⟩, ⟨rfl, rfl, rfl⟩⟩

/-- A write to a pair changes its two registers (10_state R22). -/
theorem State.outside_setPair (s : State) (p : StackPair) (w : Word) :
    s.Outside (s.setPair p w) [pairHigh p, pairLow p] [] :=
  ⟨fun _ hq => s.regs.setPair_other p w (List.ne_of_not_mem_cons hq)
      (List.ne_of_not_mem_cons (List.not_mem_of_not_mem_cons hq)),
    fun _ _ => rfl, ⟨rfl, rfl, rfl⟩, ⟨rfl, rfl, rfl⟩⟩

theorem State.outside_setSp (s : State) (w : Word) : s.Outside (s.setSp w) [] [] :=
  s.outside_refl

/-- A write to what an LXI selector names changes that pair's registers, or SP alone
(30_encoding R96). -/
theorem State.outside_setRp (s : State) (p : Pair) (w : Word) :
    s.Outside (s.setRp p w) (pairRegs p) [] := by
  cases p with
  | bc => exact s.outside_setPair .bc w
  | de => exact s.outside_setPair .de w
  | hl => exact s.outside_setPair .hl w
  | sp => exact s.outside_setSp w

/-- A byte store changes the byte at its address (20_memory R62). -/
theorem State.outside_writeByte {s : State} (hs : s.Inv) (a : Word) (v : Byte) :
    s.Outside (s.writeByte a v) [] [a] :=
  ⟨fun _ _ => rfl,
    fun _ hb => State.readByte_writeByte_other hs v (List.ne_of_not_mem_cons hb),
    ⟨rfl, rfl, rfl⟩, ⟨rfl, rfl, rfl⟩⟩

/-- A word store changes its two bytes (20_memory R64). -/
theorem State.outside_writeWord {s : State} (hs : s.Inv) (a w : Word) :
    s.Outside (s.writeWord a w) [] [a, a + 1] :=
  ⟨fun _ _ => rfl, State.memKept_of_mem_writeWord hs rfl, ⟨rfl, rfl, rfl⟩, ⟨rfl, rfl, rfl⟩⟩

/-- One operation after another changes what either of them changes. -/
theorem State.Outside.trans {s t u : State} {regs regs' : List Reg} {mem mem' : List Word}
    (hst : s.Outside t regs mem) (htu : t.Outside u regs' mem') :
    s.Outside u (regs' ++ regs) (mem' ++ mem) := by
  obtain ⟨hregs, hmem, ⟨hhalted, hinte, hparams⟩, hevents, hinputs, hdraws⟩ := hst
  obtain ⟨hregs', hmem', ⟨hhalted', hinte', hparams'⟩, hevents', hinputs', hdraws'⟩ := htu
  refine ⟨fun r hr => ?_, fun a ha => ?_,
    ⟨hhalted'.trans hhalted, hinte'.trans hinte, hparams'.trans hparams⟩,
    hevents'.trans hevents, hinputs'.trans hinputs, hdraws'.trans hdraws⟩
  · rw [List.mem_append, not_or] at hr
    exact (hregs' r hr.1).trans (hregs r hr.2)
  · rw [List.mem_append, not_or] at ha
    exact (hmem' a ha.1).trans (hmem a ha.2)

/-! ### Pairs and words -/

/-- What an LXI selector names holds the word written to it (30_encoding R96). -/
theorem State.pairHolds_setRp (s : State) (p : Pair) (w : Word) :
    (s.setRp p w).PairHolds p w := by
  cases p with
  | sp => rfl
  | _ => exact ⟨rfl, rfl⟩

theorem State.setRp_sp_of_ne (s : State) {p : Pair} (hp : p ≠ .sp) (w : Word) :
    (s.setRp p w).sp = s.sp := by
  cases p with
  | sp => exact absurd rfl hp
  | _ => rfl

theorem State.loByte_readWord (s : State) (a : Word) : loByte (s.readWord a) = s.readByte a :=
  loByte_wordOf _ _

theorem State.hiByte_readWord (s : State) (a : Word) :
    hiByte (s.readWord a) = s.readByte (a + 1) :=
  hiByte_wordOf _ _

/-! ### Instructions whose operation is one write -/

/-- An instruction whose operation keeps PC, CYCLES and the parameters advances as a sequential one
does (10_state R23, 70_reset_and_hazards R340). -/
theorem State.advanced_retire {s t : State} {i : Instr} (hpc : t.pc = (s.past i).pc)
    (hcycles : t.cycles = s.cycles) (hparams : t.params = s.params) :
    s.Advanced (t.retire i 0) i := by
  refine ⟨hpc, ?_⟩
  rw [State.retire_cycles, hcycles, hparams, Nat.add_zero]

/-- An instruction whose operation is one register write completes, the register holds the byte, and
nothing else but PC and CYCLES changes. -/
theorem exec_of_setReg {i : Instr} {s : State} {r : Reg} {v : Byte}
    (h : exec i s = .next (((s.past i).setReg r v).retire i 0)) :
    ∃ t, exec i s = .next t ∧ t.regs.get r = v ∧ s.Outside t [r] [] ∧ t.sp = s.sp ∧
      t.flags = s.flags ∧ s.Advanced t i :=
  ⟨_, h, s.regs.get_set_same r v, State.outside_past_retire (State.outside_setReg _ r v), rfl, rfl,
    State.advanced_retire rfl rfl rfl⟩

/-- An instruction whose operation is one byte store completes, the byte is read back at its address,
and nothing else but PC and CYCLES changes. -/
theorem exec_of_writeByte {i : Instr} {s : State} {a : Word} {v : Byte} (hs : s.Inv)
    (h : exec i s = .next (((s.past i).writeByte a v).retire i 0)) :
    ∃ t, exec i s = .next t ∧ t.readByte a = v ∧ s.Outside t [] [a] ∧ t.sp = s.sp ∧
      t.flags = s.flags ∧ s.Advanced t i :=
  ⟨_, h, State.readByte_of_mem_writeByte hs rfl,
    State.outside_past_retire (State.outside_writeByte (s := s.past i) hs a v), rfl, rfl,
    State.advanced_retire rfl rfl rfl⟩

/-! ### The statements -/

/-- Settles O23: each form writes one register, with a value read before that write. -/
theorem moveToRegister : Obligations.MoveToRegister := by
  intro dst s
  exact ⟨fun src => ⟨rfl, exec_of_setReg rfl⟩, rfl, exec_of_setReg rfl⟩

/-- Settles O24: MOV M,r is one byte store at HL. -/
theorem movToMemory : Obligations.MovToMemory :=
  ⟨decode_f1 rfl, fun _ _ hs => ⟨rfl, exec_of_writeByte hs rfl⟩⟩

/-- Settles O25: MVI r writes one register, MVI M stores one byte at HL. -/
theorem moveImmediate : Obligations.MoveImmediate :=
  ⟨fun _ _ _ => ⟨rfl, exec_of_setReg rfl⟩, fun _ _ hs => ⟨rfl, exec_of_writeByte hs rfl⟩⟩

/-- Settles O26: LXI writes what its selector names, by the laws of that write. -/
theorem loadPairImmediate : Obligations.LoadPairImmediate := by
  intro p w s
  refine ⟨rfl, _, rfl, ?_, ?_, fun hp => ?_, ?_, ?_⟩
  · exact State.pairHolds_setRp _ p w
  · exact State.outside_past_retire (State.outside_setRp _ p w)
  · exact State.setRp_sp_of_ne _ hp w
  · exact State.setRp_flags _ p w
  · exact State.advanced_retire (State.setRp_pc _ p w) (State.setRp_cycles _ p w)
      (State.setRp_params _ p w)

/-- Settles O27: the three forms are one byte store of A, at three addresses. -/
theorem storeAccumulator : Obligations.StoreAccumulator := by
  intro s hs
  exact ⟨⟨rfl, exec_of_writeByte hs rfl⟩, ⟨rfl, exec_of_writeByte hs rfl⟩,
    fun _ => ⟨rfl, exec_of_writeByte hs rfl⟩⟩

/-- Settles O28: the three forms are one write of A, with the byte read at three addresses. -/
theorem loadAccumulator : Obligations.LoadAccumulator := by
  intro s
  exact ⟨⟨rfl, exec_of_setReg (r := .a) rfl⟩, ⟨rfl, exec_of_setReg (r := .a) rfl⟩,
    fun _ => ⟨rfl, exec_of_setReg (r := .a) rfl⟩⟩

/-- Settles O29: SHLD stores the word HL, LHLD writes the word read to HL. -/
theorem storeAndLoadHlDirect : Obligations.StoreAndLoadHlDirect := by
  intro addr s
  refine ⟨fun hs => ⟨rfl, _, rfl, ?_, ?_, ?_, rfl, rfl, rfl, rfl⟩,
    rfl, _, rfl, ?_, ?_, ?_, rfl, rfl, rfl, rfl⟩
  · exact State.readByte_low_of_mem_writeWord hs rfl (s.regs.loByte_pair .hl)
  · exact State.readByte_high_of_mem_writeWord hs rfl (s.regs.hiByte_pair .hl)
  · exact State.outside_past_retire (State.outside_writeWord (s := s.past _) hs addr _)
  · exact s.loByte_readWord addr
  · exact s.hiByte_readWord addr
  · exact State.outside_past_retire (State.outside_setPair _ .hl _)

/-- Settles O30: XCHG writes HL and then DE, XTHL stores a word and then writes HL, each with the
values read before both writes; SPHL writes SP. -/
theorem exchangesAndSphl : Obligations.ExchangesAndSphl := by
  intro s
  refine ⟨⟨rfl, _, rfl, ?_, ?_, ?_, ?_, ?_, rfl, rfl, rfl, rfl⟩,
    fun hs => ⟨rfl, _, rfl, ?_, ?_, ?_, ?_, ?_, rfl, rfl, rfl, rfl⟩,
    rfl, _, rfl, rfl, ?_, rfl, rfl, rfl⟩
  · exact s.regs.hiByte_pair .de
  · exact s.regs.loByte_pair .de
  · exact s.regs.hiByte_pair .hl
  · exact s.regs.loByte_pair .hl
  · exact State.outside_past_retire
      ((State.outside_setPair _ .hl _).trans (State.outside_setPair _ .de _))
  · exact s.loByte_readWord s.sp
  · exact s.hiByte_readWord s.sp
  · exact State.readByte_low_of_mem_writeWord hs rfl (s.regs.loByte_pair .hl)
  · exact State.readByte_high_of_mem_writeWord hs rfl (s.regs.hiByte_pair .hl)
  · exact State.outside_past_retire
      ((State.outside_writeWord (s := s.past _) hs _ _).trans (State.outside_setPair _ .hl _))
  · exact State.outside_past_retire (State.outside_setSp _ _)

end Sys2Proof.Machine
end

section
/-! Proofs of the statements of 41_arithmetic: what each addition, subtraction, comparison, increment
and decrement writes to its operand and to the flags, and that it changes nothing else. -/

namespace Sys2Proof.Machine

/-! ### Operations on bytes and words -/

/-- Two additions that make up 256 bring a byte back: INR and DCR, in either order
(41_arithmetic R181). -/
theorem eq_of_toNat_add_add {x y z : Byte} {m n : Nat} (hy : y.toNat = (x.toNat + m) % 256)
    (hz : z.toNat = (y.toNat + n) % 256) (hmn : m + n = 256) : z = x := by
  apply BitVec.eq_of_toNat_eq
  have := x.isLt
  omega

/-- Without a borrow in, CY after Sub8 says that the first operand is less (41_arithmetic R168). -/
theorem sub8_cy_iff (acsub : AcSub) (a b : Byte) (f : Flags) :
    (sub8 acsub a b false f).2.cy = true ↔ a.toNat < b.toNat := by
  obtain ⟨-, -, hcy, -⟩ := sub8_gives acsub a b false f
  exact hcy

/-- `res` and `g` are what the increment of `x` gives at the flags `f` (41_arithmetic R170). -/
def Inc8Gives (x : Byte) (f : Flags) (res : Byte) (g : Flags) : Prop :=
  res.toNat = (x.toNat + 1) % 256 ∧ (g.ac = true ↔ x.toNat % 16 = 15) ∧ g.ZspOf res ∧ g.cy = f.cy

theorem inc8_inc8Gives (x : Byte) (f : Flags) : Inc8Gives x f (inc8 x f).1 (inc8 x f).2 := by
  obtain ⟨hvalue, hzsp, hac, hcy⟩ := inc8_gives x f
  exact ⟨hvalue, hac, hzsp, hcy⟩

/-- `res` and `g` are what the decrement of `x` gives at the flags `f` (41_arithmetic R172). -/
def Dec8Gives (acsub : AcSub) (x : Byte) (f : Flags) (res : Byte) (g : Flags) : Prop :=
  res.toNat = (x.toNat + 255) % 256 ∧ g.AcFromBorrow acsub (x.toNat % 16 = 0) ∧ g.ZspOf res ∧
    g.cy = f.cy

theorem dec8_dec8Gives (acsub : AcSub) (x : Byte) (f : Flags) :
    Dec8Gives acsub x f (dec8 acsub x f).1 (dec8 acsub x f).2 := by
  obtain ⟨hvalue, hzsp, hac, hcy⟩ := dec8_gives acsub x f
  exact ⟨hvalue, hac, hzsp, hcy⟩

/-- The sum and CY of DAD (41_arithmetic R176). -/
theorem dad16_gives (a b : Word) (f : Flags) :
    (dad16 a b f).1.toNat = (a.toNat + b.toNat) % 65536 ∧
      ((dad16 a b f).2.cy = true ↔ a.toNat + b.toNat > 65535) :=
  ⟨by simp [dad16], by simp [dad16]⟩

theorem daaHigh_iff (a : Byte) (f : Flags) :
    daaHigh a f = true ↔
      a.toNat / 16 > 9 ∨ f.cy = true ∨ (a.toNat / 16 ≥ 9 ∧ a.toNat % 16 > 9) := by
  simp [daaHigh, or_assoc]

/-- The correction of DAA is the sum of the two that 41_arithmetic R182 gives the nibbles. -/
theorem daaCorrection_eq {a : Byte} {f : Flags} {low high : Nat}
    (hlow : a.toNat % 16 > 9 ∨ f.ac = true → low = 6)
    (hlow' : ¬ (a.toNat % 16 > 9 ∨ f.ac = true) → low = 0)
    (hhigh : daaHigh a f = true → high = 96) (hhigh' : ¬ daaHigh a f = true → high = 0) :
    daaCorrection a f = low + high := by
  simp only [daaCorrection, Bool.or_eq_true, decide_eq_true_eq]
  congr 1
  · split
    · exact (hlow ‹_›).symm
    · exact (hlow' ‹_›).symm
  · split
    · exact (hhigh ‹_›).symm
    · exact (hhigh' ‹_›).symm

/-- What DAA makes of A and the flags with its correction (41_arithmetic R182). -/
theorem daa8_gives (a : Byte) (f : Flags) :
    (daa8 a f).1.toNat = (a.toNat + daaCorrection a f) % 256 ∧
      ((daa8 a f).2.ac = true ↔ a.toNat % 16 + daaCorrection a f % 16 > 15) ∧
      (daa8 a f).2.cy = daaHigh a f ∧ (daa8 a f).2.ZspOf (daa8 a f).1 :=
  ⟨by simp [daa8], by simp [daa8], rfl, f.setZSP_zspOf _⟩

/-! ### Frames and pairs -/

theorem State.outside_setFlags (s : State) (f : Flags) : s.Outside (s.setFlags f) [] [] :=
  s.outside_refl

/-- An ALU result changes A and the flags (41_arithmetic R160). -/
theorem State.outside_writeAlu (s : State) (x : Byte × Flags) : s.Outside (s.writeAlu x) [.a] [] :=
  (s.outside_setReg .a x.1).trans (State.outside_setFlags _ x.2)

/-- The read view of a pair is the word it holds (10_state R22). -/
theorem State.pairHolds_rp (s : State) (p : Pair) : s.PairHolds p (s.rp p) := by
  cases p with
  | bc => exact ⟨(s.regs.hiByte_pair .bc).symm, (s.regs.loByte_pair .bc).symm⟩
  | de => exact ⟨(s.regs.hiByte_pair .de).symm, (s.regs.loByte_pair .de).symm⟩
  | hl => exact ⟨(s.regs.hiByte_pair .hl).symm, (s.regs.loByte_pair .hl).symm⟩
  | sp => rfl

/-- Where no register changed, HL addresses the same byte. -/
theorem State.Outside.wordOf_hl {s t : State} {mem : List Word} (h : s.Outside t [] mem) :
    wordOf t.regs.h t.regs.l = wordOf s.regs.h s.regs.l := by
  obtain ⟨hregs, -⟩ := h
  exact congrArg₂ wordOf (hregs .h List.not_mem_nil) (hregs .l List.not_mem_nil)

/-- Every instruction keeps the canonical form of memory. -/
theorem exec_inv {i : Instr} {s t : State} (h : exec i s = .next t) (hs : s.Inv) : t.Inv := by
  obtain hkept | ⟨-, hstored⟩ := exec_mem_cases h
  · unfold State.Inv
    rwa [hkept]
  · exact hstored.inv hs

/-! ### Instructions whose operation writes a result and the flags -/

/-- An instruction whose operation is one ALU result completes, A and the flags are as the ALU gives
them, and nothing else but PC and CYCLES changes. -/
theorem exec_of_writeAlu {gives : Byte → Flags → Prop} {i : Instr} {s : State} {x : Byte × Flags}
    (hx : gives x.1 x.2) (h : exec i s = .next (((s.past i).writeAlu x).retire i 0)) :
    ∃ t, exec i s = .next t ∧ gives t.regs.a t.flags ∧ s.Outside t [.a] [] ∧ t.sp = s.sp ∧
      s.Advanced t i :=
  ⟨_, h, hx, State.outside_past_retire (State.outside_writeAlu _ x), rfl,
    State.advanced_retire rfl rfl rfl⟩

/-- An instruction whose operation is the comparison of A with `v` completes, with the flags of the
subtraction, and nothing else but PC and CYCLES changes (41_arithmetic R168). -/
theorem exec_of_compare {i : Instr} {s : State} {v : Byte}
    (h : exec i s = .next
      (((s.past i).setFlags (sub8 s.params.acsub s.regs.a v false s.flags).2).retire i 0)) :
    ∃ t, exec i s = .next t ∧
      (∃ res, Sub8Gives s.params.acsub s.regs.a v false res t.flags) ∧
      (t.flags.z = true ↔ s.regs.a = v) ∧ (t.flags.cy = true ↔ s.regs.a.toNat < v.toNat) ∧
      s.Outside t [] [] ∧ t.sp = s.sp ∧ s.Advanced t i :=
  ⟨_, h, ⟨_, sub8_gives _ _ _ _ _⟩, sub8_z_iff _ _ _ _, sub8_cy_iff _ _ _ _,
    State.outside_past_retire (State.outside_setFlags _ _), rfl, State.advanced_retire rfl rfl rfl⟩

/-- An instruction whose operation is one write of a register and of the flags completes, both are as
the operation gives them, and nothing else but PC and CYCLES changes. -/
theorem exec_of_setReg_setFlags {gives : Byte → Flags → Prop} {i : Instr} {s : State} {r : Reg}
    {x : Byte × Flags} (hx : gives x.1 x.2)
    (h : exec i s = .next ((((s.past i).setReg r x.1).setFlags x.2).retire i 0)) :
    ∃ t, exec i s = .next t ∧ gives (t.regs.get r) t.flags ∧ s.Outside t [r] [] ∧
      t.sp = s.sp ∧ s.Advanced t i := by
  rw [← s.regs.get_set_same r x.1] at hx
  exact ⟨_, h, hx,
    State.outside_past_retire ((State.outside_setReg _ r x.1).trans (State.outside_setFlags _ x.2)),
    rfl, State.advanced_retire rfl rfl rfl⟩

/-- An instruction whose operation is one byte store and one write of the flags completes, both are as
the operation gives them, and nothing else but PC and CYCLES changes. -/
theorem exec_of_writeByte_setFlags {gives : Byte → Flags → Prop} {i : Instr} {s : State} {a : Word}
    {x : Byte × Flags} (hs : s.Inv) (hx : gives x.1 x.2)
    (h : exec i s = .next ((((s.past i).writeByte a x.1).setFlags x.2).retire i 0)) :
    ∃ t, exec i s = .next t ∧ gives (t.readByte a) t.flags ∧ s.Outside t [] [a] ∧
      t.sp = s.sp ∧ s.Advanced t i := by
  rw [← State.readByte_writeByte_same hs a x.1] at hx
  exact ⟨_, h, hx,
    State.outside_past_retire ((State.outside_writeByte (s := s.past i) hs a x.1).trans
      (State.outside_setFlags _ x.2)),
    rfl, State.advanced_retire rfl rfl rfl⟩

theorem exec_inx (p : Pair) (s : State) :
    exec (.inx p) s = .next (((s.past (.inx p)).setRp p (s.rp p + 1)).retire (.inx p) 0) := rfl

theorem exec_dcx (p : Pair) (s : State) :
    exec (.dcx p) s = .next (((s.past (.dcx p)).setRp p (s.rp p - 1)).retire (.dcx p) 0) := rfl

theorem exec_dad (p : Pair) (s : State) :
    exec (.dad p) s = .next ((((s.past (.dad p)).setPair .hl (dad16 s.hl (s.rp p) s.flags).1).setFlags
      (dad16 s.hl (s.rp p) s.flags).2).retire (.dad p) 0) := rfl

/-- An instruction whose operation adds `n` to a pair modulo 65536 completes, and nothing but the
pair, PC and CYCLES changes (41_arithmetic R174, R175). -/
theorem exec_of_setRp_add {i : Instr} {s : State} {p : Pair} {w : Word} {n : Nat}
    (hw : w.toNat = ((s.rp p).toNat + n) % 65536)
    (h : exec i s = .next (((s.past i).setRp p w).retire i 0)) :
    ∃ t, exec i s = .next t ∧
      (∃ old new, s.PairHolds p old ∧ t.PairHolds p new ∧
        new.toNat = (old.toNat + n) % 65536) ∧
      s.Outside t (pairRegs p) [] ∧ (p ≠ .sp → t.sp = s.sp) ∧ t.flags = s.flags ∧
      s.Advanced t i :=
  ⟨_, h, ⟨s.rp p, w, s.pairHolds_rp p, State.pairHolds_setRp (s.past i) p w, hw⟩,
    State.outside_past_retire (State.outside_setRp _ p w),
    fun hp => State.setRp_sp_of_ne (s.past i) hp w, State.setRp_flags (s.past i) p w,
    State.advanced_retire (State.setRp_pc _ p w) (State.setRp_cycles _ p w)
      (State.setRp_params _ p w)⟩

/-! ### The statements -/

/-- Settles O31: the six forms are one ALU result, by Add8. -/
theorem addInstructions : Obligations.AddInstructions := fun _ =>
  ⟨fun _ => ⟨rfl, exec_of_writeAlu (add8_gives _ _ _ _) rfl⟩,
    ⟨rfl, exec_of_writeAlu (add8_gives _ _ _ _) rfl⟩,
    fun _ => ⟨rfl, exec_of_writeAlu (add8_gives _ _ _ _) rfl⟩,
    fun _ => ⟨rfl, exec_of_writeAlu (add8_gives _ _ _ _) rfl⟩,
    ⟨rfl, exec_of_writeAlu (add8_gives _ _ _ _) rfl⟩,
    fun _ => ⟨rfl, exec_of_writeAlu (add8_gives _ _ _ _) rfl⟩⟩

/-- Settles O32: the six forms are one ALU result, by Sub8. -/
theorem subtractInstructions : Obligations.SubtractInstructions := fun _ =>
  ⟨fun _ => ⟨rfl, exec_of_writeAlu (sub8_gives _ _ _ _ _) rfl⟩,
    ⟨rfl, exec_of_writeAlu (sub8_gives _ _ _ _ _) rfl⟩,
    fun _ => ⟨rfl, exec_of_writeAlu (sub8_gives _ _ _ _ _) rfl⟩,
    fun _ => ⟨rfl, exec_of_writeAlu (sub8_gives _ _ _ _ _) rfl⟩,
    ⟨rfl, exec_of_writeAlu (sub8_gives _ _ _ _ _) rfl⟩,
    fun _ => ⟨rfl, exec_of_writeAlu (sub8_gives _ _ _ _ _) rfl⟩⟩

/-- Settles O33: the three forms are one comparison. -/
theorem compareInstructions : Obligations.CompareInstructions := fun _ =>
  ⟨fun _ => ⟨rfl, exec_of_compare rfl⟩, ⟨rfl, exec_of_compare rfl⟩,
    fun _ => ⟨rfl, exec_of_compare rfl⟩⟩

/-- Settles O34: INR writes its operand and the flags as the increment gives them. -/
theorem incrementInstructions : Obligations.IncrementInstructions := by
  refine ⟨fun r s => ⟨rfl, ?_⟩, fun s hs => ⟨rfl, ?_⟩⟩
  · obtain ⟨t, hexec, ⟨hvalue, hac, hzsp, hcy⟩, hframe⟩ :=
      exec_of_setReg_setFlags (i := .inrR r) (inc8_inc8Gives (s.regs.get r) s.flags) rfl
    exact ⟨t, hexec, hvalue, hac, hzsp, hcy, hframe⟩
  · obtain ⟨t, hexec, ⟨hvalue, hac, hzsp, hcy⟩, hframe⟩ :=
      exec_of_writeByte_setFlags (i := .inrM) hs (inc8_inc8Gives (s.readByte s.hl) s.flags) rfl
    exact ⟨t, hexec, hvalue, hac, hzsp, hcy, hframe⟩

/-- Settles O35: DCR writes its operand and the flags as the decrement gives them. -/
theorem decrementInstructions : Obligations.DecrementInstructions := by
  refine ⟨fun r s => ⟨rfl, ?_⟩, fun s hs => ⟨rfl, ?_⟩⟩
  · obtain ⟨t, hexec, ⟨hvalue, hac, hzsp, hcy⟩, hframe⟩ :=
      exec_of_setReg_setFlags (i := .dcrR r)
        (dec8_dec8Gives s.params.acsub (s.regs.get r) s.flags) rfl
    exact ⟨t, hexec, hvalue, hac, hzsp, hcy, hframe⟩
  · obtain ⟨t, hexec, ⟨hvalue, hac, hzsp, hcy⟩, hframe⟩ :=
      exec_of_writeByte_setFlags (i := .dcrM) hs
        (dec8_dec8Gives s.params.acsub (s.readByte s.hl) s.flags) rfl
    exact ⟨t, hexec, hvalue, hac, hzsp, hcy, hframe⟩

/-- Settles O36: INX adds 1 to what its selector names, DCX adds 65535. -/
theorem pairIncrementAndDecrement : Obligations.PairIncrementAndDecrement := by
  intro p s
  have hdcx : (s.rp p - 1).toNat = ((s.rp p).toNat + 65535) % 65536 :=
    (BitVec.toNat_sub _ _).trans (by rw [Nat.add_comm]; rfl)
  exact ⟨⟨rfl, exec_of_setRp_add (BitVec.toNat_add _ _) (exec_inx p s)⟩,
    rfl, exec_of_setRp_add hdcx (exec_dcx p s)⟩

/-- Settles O37: DAD writes the sum to HL and its carry to CY. -/
theorem doubleAdd : Obligations.DoubleAdd := by
  intro p s
  obtain ⟨hsum, hcy⟩ := dad16_gives s.hl (s.rp p) s.flags
  refine ⟨rfl, _, exec_dad p s, ⟨s.rp p, s.pairHolds_rp p, ?_, hcy⟩, rfl, rfl, rfl, rfl, ?_, rfl,
    rfl, rfl⟩
  · exact (congrArg BitVec.toNat (wordOf_hi_lo _)).trans hsum
  · exact State.outside_past_retire
      ((State.outside_setPair _ .hl _).trans (State.outside_setFlags _ _))

/-- Settles O38: DAA is one ALU result, with the correction that the two nibbles ask for. -/
theorem decimalAdjust : Obligations.DecimalAdjust := by
  intro s
  obtain ⟨hvalue, hac, hcy, hzsp⟩ := daa8_gives s.regs.a s.flags
  refine ⟨rfl, _, rfl, ?_, hzsp, State.outside_past_retire (State.outside_writeAlu _ _), rfl, rfl,
    rfl⟩
  rintro lo hi low high adjust rfl rfl hadjust hlow hlow' hhigh hhigh'
  have hadjusted : daaHigh s.regs.a s.flags = true ↔ adjust := (daaHigh_iff _ _).trans hadjust.symm
  rw [← hadjusted] at hhigh hhigh'
  rw [daaCorrection_eq hlow hlow' hhigh hhigh'] at hvalue hac
  rw [← hcy] at hadjusted
  exact ⟨hvalue, hac, hadjusted⟩

/-- Settles O39: by O34 and O35 the two instructions add 1 and 255 to the operand. -/
theorem incrementAndDecrementAreInverse : Obligations.IncrementAndDecrementAreInverse := by
  refine ⟨fun r s => ⟨?_, ?_⟩, fun s hs => ⟨?_, ?_⟩⟩
  · obtain ⟨-, t, ht, hinc, -, -, hcy, ⟨-, -, ⟨-, -, hparams⟩, -⟩, -⟩ :=
      incrementInstructions.1 r s
    obtain ⟨-, u, hu, hdec, hac, hzsp, hcy', -⟩ := decrementInstructions.1 r t
    have hback := eq_of_toNat_add_add hinc hdec rfl
    exact ⟨t, u, ht, hu, hback, hcy, hcy'.trans hcy, hback ▸ hzsp, hparams ▸ hac⟩
  · obtain ⟨-, t, ht, hdec, -, -, hcy, -⟩ := decrementInstructions.1 r s
    obtain ⟨-, u, hu, hinc, hac, hzsp, hcy', -⟩ := incrementInstructions.1 r t
    have hback := eq_of_toNat_add_add hdec hinc rfl
    exact ⟨t, u, ht, hu, hback, hcy, hcy'.trans hcy, hback ▸ hzsp, hac⟩
  · obtain ⟨-, t, ht, hinc, -, -, hcy, hout, -⟩ := incrementInstructions.2 s hs
    obtain ⟨-, u, hu, hdec, hac, hzsp, hcy', -⟩ := decrementInstructions.2 t (exec_inv ht hs)
    rw [hout.wordOf_hl] at hdec hac hzsp
    obtain ⟨-, -, ⟨-, -, hparams⟩, -⟩ := hout
    have hback := eq_of_toNat_add_add hinc hdec rfl
    exact ⟨t, u, ht, hu, hback, hcy, hcy'.trans hcy, hback ▸ hzsp, hparams ▸ hac⟩
  · obtain ⟨-, t, ht, hdec, -, -, hcy, hout, -⟩ := decrementInstructions.2 s hs
    obtain ⟨-, u, hu, hinc, hac, hzsp, hcy', -⟩ := incrementInstructions.2 t (exec_inv ht hs)
    rw [hout.wordOf_hl] at hinc hac hzsp
    have hback := eq_of_toNat_add_add hdec hinc rfl
    exact ⟨t, u, ht, hu, hback, hcy, hcy'.trans hcy, hback ▸ hzsp, hac⟩

end Sys2Proof.Machine
end

section
/-! Proofs of the statements of 42_logical: what each logic operation, rotate and carry instruction
writes to A and to the flags, and that it changes nothing else. -/

namespace Sys2Proof.Machine

/-! ### Logic -/

/-- `res` and `g` are the result `v` of a logic operation and its flags: Z, S and P of the result, CY
cleared, AC as the operation gives it (42_logical R200 to R205). -/
def LogicGives (v : Byte) (ac : Bool) (res : Byte) (g : Flags) : Prop :=
  res = v ∧ g.ZspOf res ∧ g.cy = false ∧ g.ac = ac

theorem and8_gives (a v : Byte) (f : Flags) :
    LogicGives (a &&& v) (a.getLsbD 3 || v.getLsbD 3) (and8 a v f).1 (and8 a v f).2 :=
  ⟨rfl, f.setZSP_zspOf _, rfl, BitVec.getLsbD_or⟩

theorem xor8_gives (a v : Byte) (f : Flags) :
    LogicGives (a ^^^ v) false (xor8 a v f).1 (xor8 a v f).2 :=
  ⟨rfl, f.setZSP_zspOf _, rfl, rfl⟩

theorem or8_gives (a v : Byte) (f : Flags) :
    LogicGives (a ||| v) false (or8 a v f).1 (or8 a v f).2 :=
  ⟨rfl, f.setZSP_zspOf _, rfl, rfl⟩

/-- An instruction whose operation is one logic result completes, A and the flags are as the operation
gives them, and nothing else but PC and CYCLES changes. -/
theorem exec_of_logic {i : Instr} {s : State} {v : Byte} {ac : Bool} {x : Byte × Flags}
    (hx : LogicGives v ac x.1 x.2) (h : exec i s = .next (((s.past i).writeAlu x).retire i 0)) :
    ∃ t, exec i s = .next t ∧ t.regs.a = v ∧ t.flags.ZspOf t.regs.a ∧ t.flags.cy = false ∧
      t.flags.ac = ac ∧ s.Outside t [.a] [] ∧ t.sp = s.sp ∧ s.Advanced t i := by
  obtain ⟨t, hexec, ⟨hvalue, hzsp, hcy, hac⟩, hframe⟩ := exec_of_writeAlu hx h
  exact ⟨t, hexec, hvalue, hzsp, hcy, hac, hframe⟩

/-! ### Rotates and carry -/

/-- `res` and `g` are what a rotate gives at the flags `f`: the number `n` in A, and the bit that fell
off in CY alone (42_logical R206 to R209). -/
def RotateGives (n : Nat) (out : Bool) (f : Flags) (res : Byte) (g : Flags) : Prop :=
  res.toNat = n ∧ g = { f with cy := out }

/-- An instruction whose operation is one rotate completes, A and CY are as the rotate gives them, and
nothing else but PC and CYCLES changes. -/
theorem exec_of_rotate {i : Instr} {s : State} {n : Nat} {out : Bool} {x : Byte × Flags}
    (hx : RotateGives n out s.flags x.1 x.2)
    (h : exec i s = .next (((s.past i).writeAlu x).retire i 0)) :
    ∃ t, exec i s = .next t ∧ t.regs.a.toNat = n ∧ t.flags = { s.flags with cy := out } ∧
      s.Outside t [.a] [] ∧ t.sp = s.sp ∧ s.Advanced t i := by
  obtain ⟨t, hexec, ⟨hvalue, hflags⟩, hframe⟩ := exec_of_writeAlu hx h
  exact ⟨t, hexec, hvalue, hflags, hframe⟩

/-- An instruction whose operation is one write of the flags completes, and nothing else but PC and
CYCLES changes. -/
theorem exec_of_setFlags {i : Instr} {s : State} {f : Flags}
    (h : exec i s = .next (((s.past i).setFlags f).retire i 0)) :
    ∃ t, exec i s = .next t ∧ t.flags = f ∧ s.Outside t [] [] ∧ t.sp = s.sp ∧ s.Advanced t i :=
  ⟨_, h, rfl, State.outside_past_retire (State.outside_setFlags _ f), rfl,
    State.advanced_retire rfl rfl rfl⟩

theorem exec_cma (s : State) :
    exec .cma s = .next (((s.past .cma).setReg .a (~~~ s.regs.a)).retire .cma 0) := by
  rw [← BitVec.xor_allOnes]
  rfl

/-! ### A and CY as a ring of nine bits -/

/-- CY and A as one ring of nine bits, CY at the top: RAL and RAR rotate it by one place
(42_logical R208, R209, 90_conflicts C4). -/
def State.ring (s : State) : BitVec 9 := BitVec.cons s.flags.cy s.regs.a

/-- The ring and the four flags outside it make up A and the five flags. -/
theorem State.eq_of_ring_eq {s t : State} (hring : t.ring = s.ring)
    (hflags : { t.flags with cy := s.flags.cy } = s.flags) :
    t.regs.a = s.regs.a ∧ t.flags = s.flags := by
  have ha : t.regs.a = s.regs.a := by simpa [State.ring] using congrArg (BitVec.setWidth 8) hring
  have hcy : t.flags.cy = s.flags.cy := by simpa [State.ring] using congrArg BitVec.msb hring
  exact ⟨ha, by rw [← hflags, ← hcy]⟩

/-- The state after RAL. -/
def State.afterRal (s : State) : State :=
  ((s.past .ral).writeAlu (ral8 s.regs.a s.flags)).retire .ral 0

/-- The state after RAR. -/
def State.afterRar (s : State) : State :=
  ((s.past .rar).writeAlu (rar8 s.regs.a s.flags)).retire .rar 0

theorem exec_ral (s : State) : exec .ral s = .next s.afterRal := rfl

theorem exec_rar (s : State) : exec .rar s = .next s.afterRar := rfl

theorem State.ring_afterRal (s : State) : s.afterRal.ring = s.ring.rotateLeft 1 := by
  have h : ∀ (c : Bool) (a : Byte), BitVec.cons (a.getLsbD 7) ((a <<< 1) ||| bitAt c 0) =
      (BitVec.cons c a).rotateLeft 1 := by decide
  exact h s.flags.cy s.regs.a

theorem State.ring_afterRar (s : State) : s.afterRar.ring = s.ring.rotateRight 1 := by
  have h : ∀ (c : Bool) (a : Byte), BitVec.cons (a.getLsbD 0) ((a >>> 1) ||| bitAt c 7) =
      (BitVec.cons c a).rotateRight 1 := by decide
  exact h s.flags.cy s.regs.a

theorem rotateRight_rotateLeft_one : ∀ x : BitVec 9, (x.rotateLeft 1).rotateRight 1 = x := by
  decide

/-- Nine rotations by one place bring every bit of the ring back to its own place. -/
theorem rotateLeft_one_iterate_nine : ∀ x : BitVec 9, (BitVec.rotateLeft · 1)^[9] x = x := by
  decide

/-- RAL in a row rotates the ring as often. -/
theorem State.ring_iterate_afterRal (n : Nat) (s : State) :
    (State.afterRal^[n] s).ring = (BitVec.rotateLeft · 1)^[n] s.ring :=
  Function.Semiconj.iterate_right (f := State.ring) (ga := State.afterRal)
    (gb := (BitVec.rotateLeft · 1)) State.ring_afterRal n s

/-- RAL in a row changes no flag but CY. -/
theorem State.flags_iterate_afterRal (n : Nat) (s : State) (c : Bool) :
    { (State.afterRal^[n] s).flags with cy := c } = { s.flags with cy := c } := by
  induction n with
  | zero => rfl
  | succ n ih =>
    rw [Function.iterate_succ_apply', ← ih]
    rfl

/-! ### The statements -/

/-- Settles O40: the three forms are one logic result, by AND. -/
theorem andInstructions : Obligations.AndInstructions := fun _ =>
  ⟨fun _ => ⟨rfl, exec_of_logic (and8_gives _ _ _) rfl⟩,
    ⟨rfl, exec_of_logic (and8_gives _ _ _) rfl⟩,
    fun _ => ⟨rfl, exec_of_logic (and8_gives _ _ _) rfl⟩⟩

/-- Settles O41: the six forms are one logic result, by exclusive OR and by OR. -/
theorem orAndExclusiveOrInstructions : Obligations.OrAndExclusiveOrInstructions := fun _ =>
  ⟨fun _ => ⟨rfl, exec_of_logic (xor8_gives _ _ _) rfl⟩,
    ⟨rfl, exec_of_logic (xor8_gives _ _ _) rfl⟩,
    fun _ => ⟨rfl, exec_of_logic (xor8_gives _ _ _) rfl⟩,
    fun _ => ⟨rfl, exec_of_logic (or8_gives _ _ _) rfl⟩,
    ⟨rfl, exec_of_logic (or8_gives _ _ _) rfl⟩,
    fun _ => ⟨rfl, exec_of_logic (or8_gives _ _ _) rfl⟩⟩

/-- Settles O42: each rotate is one ALU result, with the number its law gives. -/
theorem rotateInstructions : Obligations.RotateInstructions := fun _ =>
  ⟨⟨rfl, exec_of_rotate ⟨rlc8_toNat _ _, rfl⟩ rfl⟩,
    ⟨rfl, exec_of_rotate ⟨rrc8_toNat _ _, rfl⟩ rfl⟩,
    ⟨rfl, exec_of_rotate ⟨ral8_toNat _ _, rfl⟩ rfl⟩,
    ⟨rfl, exec_of_rotate ⟨rar8_toNat _ _, rfl⟩ rfl⟩⟩

/-- Settles O43: RAR rotates the ring of A and CY back, and nine RAL turn it once around. -/
theorem rarUndoesRalAndNineRalRestore : Obligations.RarUndoesRalAndNineRalRestore := by
  intro s
  constructor
  · have hring : s.afterRal.afterRar.ring = s.ring := by
      rw [State.ring_afterRar, State.ring_afterRal, rotateRight_rotateLeft_one]
    exact ⟨_, _, exec_ral s, exec_rar _, State.eq_of_ring_eq hring rfl⟩
  · have hring : (State.afterRal^[9] s).ring = s.ring := by
      rw [State.ring_iterate_afterRal, rotateLeft_one_iterate_nine]
    exact ⟨_, _, _, _, _, _, _, _, _, exec_ral s, exec_ral _, exec_ral _, exec_ral _, exec_ral _,
      exec_ral _, exec_ral _, exec_ral _, exec_ral _,
      State.eq_of_ring_eq hring (State.flags_iterate_afterRal 9 s _)⟩

/-- Settles O44: CMA is one write of A, STC and CMC are one write of the flags. -/
theorem complementAndCarryInstructions : Obligations.ComplementAndCarryInstructions := by
  intro s
  obtain ⟨t, hexec, hvalue, hout, hsp, hflags, hadvanced⟩ := exec_of_setReg (exec_cma s)
  exact ⟨⟨rfl, t, hexec, hvalue, hflags, hout, hsp, hadvanced⟩, ⟨rfl, exec_of_setFlags rfl⟩,
    rfl, exec_of_setFlags rfl⟩

end Sys2Proof.Machine
end

section
/-! Proofs of the statements of 43_branch: where each jump, call, restart and return goes, what it does
to the stack, and what it costs. -/

namespace Sys2Proof

/-! ### What the bytes of an instruction say -/

theorem Instr.opcode_of_encode {i : Instr} {op : Byte} {bs : List Byte}
    (h : encode i = op :: bs) : i.opcode = op :=
  (List.cons.inj h).1

theorem Instr.length_of_encode {i : Instr} {bs : List Byte} (h : encode i = bs) :
    i.length = bs.length :=
  congrArg List.length h

end Sys2Proof

namespace Sys2Proof.Machine

/-! ### The listed conditional instructions -/

/-- Each listed conditional jump has the opcode byte listed, and jumps where the condition its mnemonic
names holds, which is the predicate listed with it (30_encoding R97, 43_branch R232). -/
theorem conditionalJumps_exec {e : Byte × (Word → Instr) × (Flags → Bool)}
    (listed : e ∈ conditionalJumps) :
    ∃ k : Cond, (∀ f, f.cond k = e.2.2 f) ∧ ∀ addr s,
      encode (e.2.1 addr) = [e.1, loByte addr, hiByte addr] ∧
      exec (e.2.1 addr) s = execute (e.2.1 addr) s fun s => s.jumpIf k addr := by
  simp only [conditionalJumps, List.mem_cons, List.not_mem_nil, or_false] at listed
  rcases listed with rfl | rfl | rfl | rfl | rfl | rfl | rfl | rfl
  · exact ⟨.nz, fun _ => rfl, fun _ _ => ⟨rfl, rfl⟩⟩
  · exact ⟨.z, fun _ => rfl, fun _ _ => ⟨rfl, rfl⟩⟩
  · exact ⟨.nc, fun _ => rfl, fun _ _ => ⟨rfl, rfl⟩⟩
  · exact ⟨.c, fun _ => rfl, fun _ _ => ⟨rfl, rfl⟩⟩
  · exact ⟨.po, fun _ => rfl, fun _ _ => ⟨rfl, rfl⟩⟩
  · exact ⟨.pe, fun _ => rfl, fun _ _ => ⟨rfl, rfl⟩⟩
  · exact ⟨.p, fun _ => rfl, fun _ _ => ⟨rfl, rfl⟩⟩
  · exact ⟨.m, fun _ => rfl, fun _ _ => ⟨rfl, rfl⟩⟩

theorem conditionalCalls_encode {e : Byte × (Word → Instr) × (Flags → Bool)}
    (listed : e ∈ conditionalCalls) (addr : Word) :
    encode (e.2.1 addr) = [e.1, loByte addr, hiByte addr] := by
  simp only [conditionalCalls, List.mem_cons, List.not_mem_nil, or_false] at listed
  rcases listed with rfl | rfl | rfl | rfl | rfl | rfl | rfl | rfl <;> rfl

/-- Each listed conditional return has the opcode byte listed, and returns where the condition its
mnemonic names holds, which is the predicate listed with it (30_encoding R97, 43_branch R236). -/
theorem conditionalReturns_exec {e : Byte × Instr × (Flags → Bool)}
    (listed : e ∈ conditionalReturns) :
    ∃ k : Cond, (∀ f, f.cond k = e.2.2 f) ∧ encode e.2.1 = [e.1] ∧
      ∀ s, exec e.2.1 s = executeIf e.2.1 k s fun s => s.popPc := by
  simp only [conditionalReturns, List.mem_cons, List.not_mem_nil, or_false] at listed
  rcases listed with rfl | rfl | rfl | rfl | rfl | rfl | rfl | rfl
  · exact ⟨.nz, fun _ => rfl, rfl, fun _ => rfl⟩
  · exact ⟨.z, fun _ => rfl, rfl, fun _ => rfl⟩
  · exact ⟨.nc, fun _ => rfl, rfl, fun _ => rfl⟩
  · exact ⟨.c, fun _ => rfl, rfl, fun _ => rfl⟩
  · exact ⟨.po, fun _ => rfl, rfl, fun _ => rfl⟩
  · exact ⟨.pe, fun _ => rfl, rfl, fun _ => rfl⟩
  · exact ⟨.p, fun _ => rfl, rfl, fun _ => rfl⟩
  · exact ⟨.m, fun _ => rfl, rfl, fun _ => rfl⟩

/-! ### Instructions whose operation is one transfer of control -/

theorem rstTarget_toNat (n : BitVec 3) : (rstTarget n).toNat = 8 * n.toNat := by
  have := n.isLt
  simp only [rstTarget, BitVec.toNat_ofNat]
  omega

/-- An instruction whose operation is one write of PC completes, and nothing else but CYCLES
changes. -/
theorem exec_of_jump {i : Instr} {s : State} {addr : Word}
    (h : exec i s = .next (((s.past i).jump addr).retire i 0)) :
    ∃ t, exec i s = .next t ∧ t.pc = addr ∧ s.Outside t [] [] ∧ t.sp = s.sp ∧
      t.flags = s.flags ∧ t.cycles = s.cycles + s.params.cycOf i.opcode :=
  ⟨_, h, rfl, State.outside_past_retire (State.outside_jump _ addr), rfl, rfl, rfl⟩

/-- An instruction that does no operation, as a conditional one that is not taken, completes, and
nothing but PC and CYCLES changes. -/
theorem exec_of_past {i : Instr} {s : State} (h : exec i s = .next ((s.past i).retire i 0)) :
    ∃ t, exec i s = .next t ∧ s.Outside t [] [] ∧ t.sp = s.sp ∧ t.flags = s.flags ∧
      s.Advanced t i :=
  ⟨_, h, State.outside_past_retire (State.outside_refl _), rfl, rfl,
    State.advanced_retire rfl rfl rfl⟩

/-- An instruction whose operation is one call completes, the address past its bytes lies on the stack,
and nothing else but CYCLES changes (43_branch R233). -/
theorem exec_of_callTo {i : Instr} {s : State} {addr : Word} {extra : Nat} (hs : s.Inv)
    (h : exec i s = .next (((s.past i).callTo addr).retire i extra)) :
    ∃ t, exec i s = .next t ∧ t.pc = addr ∧ t.sp = s.sp - 2 ∧
      t.WordAt (s.sp - 2) (s.pc + BitVec.ofNat 16 i.length) ∧
      s.Outside t [] [s.sp - 2, s.sp - 2 + 1] ∧ t.flags = s.flags ∧
      t.cycles = s.cycles + (s.params.cycOf i.opcode + extra) :=
  ⟨_, h, rfl, rfl, State.wordAt_of_mem_writeWord hs rfl,
    State.outside_past_retire (State.outside_callTo (s := s.past i) hs addr), rfl, rfl⟩

/-- An instruction whose operation is one return completes, PC is the word at the top of the stack, and
nothing else but SP and CYCLES changes (43_branch R235). -/
theorem exec_of_popPc {i : Instr} {s : State} {extra : Nat}
    (h : exec i s = .next ((s.past i).popPc.retire i extra)) :
    ∃ t, exec i s = .next t ∧
      t.pc.toNat = (s.readByte s.sp).toNat + 256 * (s.readByte (s.sp + 1)).toNat ∧
      t.sp = s.sp + 2 ∧ s.Outside t [] [] ∧ t.flags = s.flags ∧
      t.cycles = s.cycles + (s.params.cycOf i.opcode + extra) :=
  ⟨_, h, s.readWord_toNat s.sp, rfl, State.outside_past_retire (State.outside_popPc _), rfl, rfl⟩

/-! ### The statements -/

/-- Settles O45: each form is one write of PC; a conditional jump that is not taken writes the address
past its bytes. -/
theorem jumpInstructions : Obligations.JumpInstructions := by
  intro s
  refine ⟨fun addr => ⟨rfl, exec_of_jump rfl⟩, fun e listed addr => ?_, rfl, exec_of_jump rfl⟩
  obtain ⟨k, hk, hexec⟩ := conditionalJumps_exec listed
  obtain ⟨hencode, hexec⟩ := hexec addr s
  rw [execute_next, State.jumpIf_eq] at hexec
  obtain ⟨t, ht, hpc, hout, hsp, hflags, hcycles⟩ := exec_of_jump hexec
  simp only [State.past_flags, State.past_pc, hk, Instr.length_of_encode hencode] at hpc
  rw [Instr.opcode_of_encode hencode] at hcycles
  exact ⟨hencode, t, ht, fun taken => hpc.trans (if_pos taken),
    fun notTaken => hpc.trans (by rw [notTaken]; rfl), hout, hsp, hflags, hcycles⟩

/-- Settles O46: both are one call, RST to the address its number names. -/
theorem callAndRestart : Obligations.CallAndRestart := by
  intro s hs
  refine ⟨fun addr => ⟨rfl, exec_of_callTo (i := .call addr) (extra := 0) hs rfl⟩, fun n => ⟨rfl, ?_⟩⟩
  obtain ⟨t, ht, hpc, hframe⟩ := exec_of_callTo (i := .rst n) (extra := 0) hs rfl
  exact ⟨t, ht, (congrArg BitVec.toNat hpc).trans (rstTarget_toNat n), hframe⟩

/-- Settles O47: by the two cases of a conditional CALL; a taken one is one call. -/
theorem conditionalCallInstructions : Obligations.ConditionalCalls := by
  intro e listed addr s hs
  obtain ⟨k, hk, hexec⟩ := conditionalCalls_exec listed
  obtain ⟨hlength, hexec⟩ := hexec addr s
  have hencode := conditionalCalls_encode listed addr
  refine ⟨hencode, ?_⟩
  rw [← hk, ← Instr.opcode_of_encode hencode]
  obtain ⟨hcond, hnext⟩ | ⟨hcond, hnext⟩ := executeIf_cases (e.2.1 addr) k s (·.callTo addr)
  · obtain ⟨t, ht, hpc, hsp, hword, hout, hflags, hcycles⟩ := exec_of_callTo hs (hexec.trans hnext)
    rw [hlength] at hword
    exact ⟨t, ht, hflags, fun _ => ⟨hpc, hsp, hword, hout, hcycles⟩,
      fun h => absurd (hcond.symm.trans h) nofun⟩
  · obtain ⟨t, ht, hout, hsp, hflags, hpc, hcycles⟩ := exec_of_past (hexec.trans hnext)
    rw [hlength] at hpc
    exact ⟨t, ht, hflags, fun h => absurd (hcond.symm.trans h) nofun,
      fun _ => ⟨hpc, hsp, hout, hcycles⟩⟩

/-- Settles O48: RET is one return, and so is a conditional RETURN that is taken. -/
theorem returnInstructions : Obligations.ReturnInstructions := by
  intro s
  refine ⟨⟨rfl, exec_of_popPc (i := .ret) (extra := 0) rfl⟩, fun e listed => ?_⟩
  obtain ⟨k, hk, hencode, hexec⟩ := conditionalReturns_exec listed
  refine ⟨hencode, ?_⟩
  rw [← hk, ← Instr.opcode_of_encode hencode]
  obtain ⟨hcond, hnext⟩ | ⟨hcond, hnext⟩ := executeIf_cases e.2.1 k s (·.popPc)
  · obtain ⟨t, ht, hpc, hsp, hout, hflags, hcycles⟩ := exec_of_popPc ((hexec s).trans hnext)
    exact ⟨t, ht, hout, hflags, fun _ => ⟨hpc, hsp, hcycles⟩,
      fun h => absurd (hcond.symm.trans h) nofun⟩
  · obtain ⟨t, ht, hout, hsp, hflags, hpc, hcycles⟩ := exec_of_past ((hexec s).trans hnext)
    rw [Instr.length_of_encode hencode] at hpc
    exact ⟨t, ht, hout, hflags, fun h => absurd (hcond.symm.trans h) nofun,
      fun _ => ⟨hpc, hsp, hcycles⟩⟩

end Sys2Proof.Machine
end

section
/-! Proofs of the statements of 44_stack: what PUSH stores and POP loads, that nothing else changes, and
that a POP after a PUSH gives the word back. -/

namespace Sys2Proof.Machine

/-! ### Push and Pop -/

/-- A push changes SP and the two bytes of the word (44_stack R250). -/
theorem State.outside_push {s : State} (hs : s.Inv) (w : Word) :
    s.Outside (s.push w) [] [s.sp - 2, s.sp - 2 + 1] :=
  State.outside_writeWord (s := s.setSp _) hs _ w

/-- A pop changes SP alone (44_stack R251). -/
theorem State.outside_pop (s : State) : s.Outside s.pop.2 [] [] :=
  s.outside_setSp _

/-- A write to AF changes, of the registers, A alone (10_state R27). -/
theorem State.outside_setAf (s : State) (w : Word) : s.Outside (s.setAf w) [.a] [] :=
  (s.outside_setReg .a (hiByte w)).trans (State.outside_setFlags _ _)

theorem State.pop_push {s : State} (hs : s.Inv) (w : Word) : (s.push w).pop.1 = w :=
  State.readWord_writeWord (s := s.setSp _) hs _ w

/-- A frame stays true when it leaves out more registers. -/
theorem State.Outside.mono_regs {s t : State} {regs regs' : List Reg} {mem : List Word}
    (h : s.Outside t regs mem) (hsub : regs ⊆ regs') : s.Outside t regs' mem := by
  obtain ⟨hregs, hframe⟩ := h
  exact ⟨fun r hr => hregs r fun hmem => hr (hsub hmem), hframe⟩

/-! ### The stack instructions -/

/-- An instruction whose operation is one push completes, the word lies at the new top of the stack, and
nothing else but SP, PC and CYCLES changes. -/
theorem exec_of_push {i : Instr} {s : State} {w : Word} (hs : s.Inv)
    (h : exec i s = .next (((s.past i).push w).retire i 0)) :
    ∃ t, exec i s = .next t ∧ t.sp = s.sp - 2 ∧ t.WordAt (s.sp - 2) w ∧
      s.Outside t [] [s.sp - 2, s.sp - 2 + 1] ∧ t.flags = s.flags ∧ s.Advanced t i :=
  ⟨_, h, rfl, State.wordAt_of_mem_writeWord hs rfl,
    State.outside_past_retire (State.outside_push (s := s.past i) hs w), rfl,
    State.advanced_retire rfl rfl rfl⟩

/-- PUSH stores the pair at the new top of the stack (44_stack R253). -/
theorem exec_push {s : State} (hs : s.Inv) (p : StackPair) :
    ∃ t, exec (.push p) s = .next t ∧ t.sp = s.sp - 2 ∧
      t.readByte (s.sp - 2) = s.regs.get (pairLow p) ∧
      t.readByte (s.sp - 2 + 1) = s.regs.get (pairHigh p) ∧
      s.Outside t [] [s.sp - 2, s.sp - 2 + 1] ∧ t.flags = s.flags ∧ s.Advanced t (.push p) := by
  obtain ⟨t, ht, hsp, ⟨hlow, hhigh⟩, hframe⟩ := exec_of_push (i := .push p) hs rfl
  exact ⟨t, ht, hsp, hlow.trans (s.regs.loByte_pair p), hhigh.trans (s.regs.hiByte_pair p), hframe⟩

/-- PUSH PSW stores A and the flags byte at the new top of the stack (44_stack R254). -/
theorem exec_pushPsw {s : State} (hs : s.Inv) :
    ∃ t, exec .pushPsw s = .next t ∧ t.sp = s.sp - 2 ∧
      t.readByte (s.sp - 2) = s.flags.toByte ∧ t.readByte (s.sp - 2 + 1) = s.regs.a ∧
      s.Outside t [] [s.sp - 2, s.sp - 2 + 1] ∧ t.flags = s.flags ∧ s.Advanced t .pushPsw := by
  obtain ⟨t, ht, hsp, ⟨hlow, hhigh⟩, hframe⟩ := exec_of_push (i := .pushPsw) hs rfl
  exact ⟨t, ht, hsp, hlow.trans (loByte_wordOf _ _), hhigh.trans (hiByte_wordOf _ _), hframe⟩

/-- POP loads the pair from the two bytes at the top of the stack (44_stack R255). -/
theorem exec_pop (p : StackPair) (s : State) :
    ∃ t, exec (.pop p) s = .next t ∧ t.sp = s.sp + 2 ∧
      t.regs.get (pairLow p) = s.readByte s.sp ∧
      t.regs.get (pairHigh p) = s.readByte (s.sp + 1) ∧
      s.Outside t [pairLow p, pairHigh p] [] ∧ t.flags = s.flags ∧ s.Advanced t (.pop p) := by
  refine ⟨_, rfl, rfl, ?_, ?_, ?_, rfl, State.advanced_retire rfl rfl rfl⟩
  · exact (s.regs.setPair_lo p _).trans (s.loByte_readWord s.sp)
  · exact (s.regs.setPair_hi p _).trans (s.hiByte_readWord s.sp)
  · exact State.outside_past_retire (((State.outside_pop _).trans
      (State.outside_setPair _ p _)).mono_regs (List.Perm.swap _ _ _).subset)

/-- POP PSW loads A and the flags from the two bytes at the top of the stack (44_stack R256). -/
theorem exec_popPsw (s : State) :
    ∃ t, exec .popPsw s = .next t ∧ t.sp = s.sp + 2 ∧ t.regs.a = s.readByte (s.sp + 1) ∧
      t.flags = Flags.ofByte (s.readByte s.sp) ∧ s.Outside t [.a] [] ∧ s.Advanced t .popPsw := by
  refine ⟨_, rfl, rfl, ?_, ?_, ?_, State.advanced_retire rfl rfl rfl⟩
  · exact s.hiByte_readWord s.sp
  · exact congrArg Flags.ofByte (s.loByte_readWord s.sp)
  · exact State.outside_past_retire ((State.outside_pop _).trans (State.outside_setAf _ _))

/-! ### The statements -/

/-- Settles O49: both forms are one push; F, as a number, is the sum of its flags' weights. -/
theorem pushInstructions : Obligations.PushInstructions := by
  intro s hs
  obtain ⟨t, ht, hsp, hlow, hframe⟩ := exec_pushPsw hs
  exact ⟨fun p => ⟨rfl, exec_push hs p⟩, rfl, t, ht, hsp,
    (congrArg BitVec.toNat hlow).trans s.flags.toByte_toNat, hframe⟩

/-- Settles O50: both forms load the two bytes at the top of the stack; the flags are the bits of the
low one. -/
theorem popInstructions : Obligations.PopInstructions := by
  intro s
  obtain ⟨t, ht, hsp, ha, hflags, hframe⟩ := exec_popPsw s
  refine ⟨fun p => ⟨rfl, exec_pop p s⟩, rfl, t, ht, hsp, ha, ?_⟩
  rw [hflags]
  exact ⟨rfl, rfl, rfl, rfl, rfl, hframe⟩

/-- Settles O51: the pop reads the two bytes the push stored, and adds the 2 it subtracted from SP. -/
theorem pushThenPopRestores : Obligations.PushThenPopRestores := by
  intro s hs
  have hsp : s.sp - 2 + 2 = s.sp := BitVec.sub_add_cancel _ _
  refine ⟨fun w => ⟨State.pop_push hs w, hsp⟩, fun p q => ?_, ?_⟩
  · obtain ⟨t, ht, htsp, hlow, hhigh, -⟩ := exec_push hs p
    obtain ⟨u, hu, husp, hlow', hhigh', -⟩ := exec_pop q t
    rw [htsp] at husp hlow' hhigh'
    exact ⟨t, u, ht, hu, hhigh'.trans hhigh, hlow'.trans hlow, husp.trans hsp⟩
  · obtain ⟨t, ht, htsp, hlow, hhigh, -⟩ := exec_pushPsw hs
    obtain ⟨u, hu, husp, ha, hflags, -⟩ := exec_popPsw t
    rw [htsp] at husp ha hflags
    rw [hlow, Flags.ofByte_toByte] at hflags
    exact ⟨t, u, ht, hu, ha.trans hhigh, hflags, husp.trans hsp⟩

end Sys2Proof.Machine
end

section
/-! Proofs of the statements of 45_io_control: what IN and OUT tell the device and leave alone, and what
EI, DI, HLT and NOP do to HALTED and INTE. -/

namespace Sys2Proof.Machine

/-! ### Device calls -/

/-- An input call changes no register, no memory and no control state (20_memory R71). -/
theorem State.devIn_keeps (s : State) (p : Byte) :
    s.RegsKept (s.devIn p).2 [] ∧ s.MemKept (s.devIn p).2 [] ∧ s.ControlKept (s.devIn p).2 :=
  ⟨fun r _ => congrArg (·.get r) (s.devIn_regs p), fun a _ => State.readByte_congr (s.devIn_mem p) a,
    s.devIn_halted p, s.devIn_inte p, s.devIn_params p⟩

/-- An output call changes no register, no memory and no control state (20_memory R72). -/
theorem State.devOut_keeps (s : State) (p v : Byte) :
    s.RegsKept (s.devOut p v) [] ∧ s.MemKept (s.devOut p v) [] ∧ s.ControlKept (s.devOut p v) :=
  ⟨fun _ _ => rfl, fun _ _ => rfl, rfl, rfl, rfl⟩

/-! ### Instructions whose operation is one write of HALTED and INTE -/

/-- An instruction whose operation writes control state alone completes, and nothing else but PC and
CYCLES changes; so a property that HALTED and INTE decide holds after it. -/
theorem exec_of_setControl {after : State → Prop} {i : Instr} {s : State} {inte halted : Bool}
    (h : exec i s = .next ({ s.past i with inte := inte, halted := halted }.retire i 0))
    (hafter : ∀ t : State, t.inte = inte → t.halted = halted → after t) :
    ∃ t, exec i s = .next t ∧ t.inte = inte ∧ t.halted = halted ∧ t.params = s.params ∧
      s.RegsKept t [] ∧ s.MemKept t [] ∧ s.DeviceKept t ∧ t.sp = s.sp ∧ t.flags = s.flags ∧
      s.Advanced t i ∧ after t :=
  ⟨_, h, rfl, rfl, rfl, fun _ _ => rfl, fun _ _ => rfl, ⟨rfl, rfl, rfl⟩, rfl, rfl,
    State.advanced_retire rfl rfl rfl, hafter _ rfl rfl⟩

/-! ### The statements -/

/-- Settles O52: the one input call gives A and its event the same byte; what the queue holds afterwards
is said by the two cases of the call. -/
theorem inputInstruction : Obligations.InputInstruction := by
  intro port s
  obtain ⟨hregs, hmem, hcontrol⟩ := (s.past (.inp port)).devIn_keeps port
  refine ⟨rfl, _, rfl, State.devIn_events _ port, fun _ _ ready => ?_, fun free => ?_, fun r hr => ?_,
    hmem, hcontrol, State.devIn_sp _ port, State.devIn_flags _ port,
    State.advanced_retire (State.devIn_pc _ port) (State.devIn_cycles _ port)
      (State.devIn_params _ port)⟩
  · exact State.devIn_ready (s := s.past _) ready port
  · exact (State.devIn_free (s := s.past _) free port).2
  · exact (Regs.get_set_other _ _ (List.ne_of_not_mem_cons hr)).trans (hregs r List.not_mem_nil)

/-- Settles O53: the operation is one output call with the A of before. -/
theorem outputInstruction : Obligations.OutputInstruction := by
  intro port s
  obtain ⟨hregs, hmem, hcontrol⟩ := (s.past (.outp port)).devOut_keeps port s.regs.a
  exact ⟨rfl, _, rfl, State.devOut_events _ port _, rfl, rfl, hregs, hmem, hcontrol, rfl, rfl,
    State.advanced_retire rfl rfl rfl⟩

/-- Settles O54: EI, DI and HLT are one write of control state, which alone decides whether a request is
accepted and whether a step does anything. -/
theorem controlInstructions : Obligations.ControlInstructions := by
  intro s
  refine ⟨⟨rfl, exec_of_setControl rfl fun t hinte _ target => ?_⟩,
    ⟨rfl, exec_of_setControl rfl fun _ hinte _ => State.interrupt_ignored hinte⟩, ⟨rfl, ?_⟩,
    rfl, exec_of_past rfl⟩
  · exact ⟨State.interrupt_pc hinte target, t.interrupt_inte target⟩
  · obtain ⟨t, ht, hinte, hhalted, hframe⟩ :=
      exec_of_setControl (i := .hlt) (s := s) (after := fun t => t.Final ∧ step t = .next t) rfl
        fun t _ hhalted => ⟨hhalted, step_halted hhalted⟩
    exact ⟨t, ht, hhalted, hinte, hframe⟩

end Sys2Proof.Machine
end

section
/-! Proofs of the statements of 60_exceptions: when an undocumented opcode byte stops the core, and what
an interrupt request does. -/

namespace Sys2Proof

/-! ### The instructions of the undocumented bytes -/

/-- The instructions of the undocumented opcode bytes, one constructor per kind (30_encoding R105). -/
inductive Instr.Undocumented : Instr → Prop where
  | nop (n : BitVec 3) : Instr.Undocumented (.undocNop n)
  | jmp (addr : Word) : Instr.Undocumented (.undocJmp addr)
  | ret : Instr.Undocumented .undocRet
  | call (n : BitVec 2) (addr : Word) : Instr.Undocumented (.undocCall n addr)

open Machine

theorem undocNop_opcode_mem :
    ∀ n : BitVec 3, (n != 0) = true → 0b00#2 ++ n ++ 0b000#3 ∈ undocumentedOpcodes := by
  decide

theorem undocCall_opcode_mem :
    ∀ n : BitVec 2, (n != 0) = true → 0b11#2 ++ n ++ 0b1101#4 ∈ undocumentedOpcodes := by
  decide

/-- A well-formed instruction of one of the four kinds has one of the 12 bytes. -/
theorem Instr.Undocumented.opcode_mem {i : Instr} (h : i.Undocumented) (hwf : i.wf = true) :
    i.opcode ∈ undocumentedOpcodes := by
  cases h with
  | nop n => exact undocNop_opcode_mem n hwf
  | call n _ => exact undocCall_opcode_mem n hwf
  | jmp | ret => simp only [Instr.opcode]; decide

/-- An instruction of an undocumented byte completes as its duplicate unless `UNDOC` stops it. -/
theorem Instr.Undocumented.exec_eq {i : Instr} (h : i.Undocumented) (s : State) :
    ∃ t, exec i s = undocumented i s (.next t) := by
  cases h <;> exact ⟨_, rfl⟩

end Sys2Proof

namespace Sys2Proof.Machine

/-! ### What is fetched at an undocumented byte -/

theorem undocumentedOpcodes_cases : ∀ op ∈ undocumentedOpcodes,
    (∃ n : BitVec 3, n ≠ 0 ∧ op = 0b00#2 ++ n ++ 0b000#3) ∨ op = 0xCB ∨ op = 0xD9 ∨
      ∃ n : BitVec 2, n ≠ 0 ∧ op = 0b11#2 ++ n ++ 0b1101#4 := by
  decide

theorem State.fetchInstr_f1 {s : State} {i : Instr} (h : decodeOpcode s.opcodeAtPc = .f1 i) :
    s.fetchInstr = i :=
  State.fetchInstr_of_decode (decode_f1 h _)

/-- What is fetched is of one of the four kinds exactly where the byte at PC is one of the 12
(30_encoding R105). -/
theorem State.fetchInstr_undocumented_iff (s : State) :
    s.fetchInstr.Undocumented ↔ s.opcodeAtPc ∈ undocumentedOpcodes := by
  refine ⟨fun h => s.fetchInstr_opcode ▸ h.opcode_mem s.fetchInstr_spec.2, fun h => ?_⟩
  obtain ⟨n, hn, hop⟩ | hop | hop | ⟨n, hn, hop⟩ := undocumentedOpcodes_cases _ h
  · rw [State.fetchInstr_f1 (hop ▸ decodeOpcode_undocNop hn)]
    exact .nop n
  · rw [State.fetchInstr_f3 (i := .undocJmp) (by rw [hop]; rfl)]
    exact .jmp _
  · rw [State.fetchInstr_f1 (i := .undocRet) (by rw [hop]; rfl)]
    exact .ret
  · rw [State.fetchInstr_f3 (hop ▸ decodeOpcode_undocCall hn)]
    exact .call n _

/-! ### Which instructions complete -/

theorem executeIf_completes (i : Instr) (k : Cond) (s : State) (f : State → State) :
    ∃ t, executeIf i k s f = .next t := by
  obtain ⟨-, hnext⟩ | ⟨-, hnext⟩ := executeIf_cases i k s f
  · exact ⟨_, hnext⟩
  · exact ⟨_, hnext⟩

/-- Every documented instruction completes, in every state (60_exceptions R304). -/
theorem exec_completes {i : Instr} (h : ¬ i.Undocumented) (s : State) :
    ∃ t, exec i s = .next t := by
  cases i
  case cnz | cz | cnc | cc | cpo | cpe | cp | cm | rnz | rz | rnc | rc | rpo | rpe | rp | rm =>
    unfold exec
    exact executeIf_completes _ _ _ _
  case undocNop n => exact absurd (.nop n) h
  case undocJmp addr => exact absurd (.jmp addr) h
  case undocRet => exact absurd .ret h
  case undocCall n addr => exact absurd (.call n addr) h
  all_goals exact ⟨_, rfl⟩

/-! ### The interrupt request -/

theorem State.interrupt_sp {s : State} (h : s.inte = true) (target : Word) :
    (s.interrupt target).sp = s.sp - 2 := by
  rw [State.interrupt_accepted h]; rfl

theorem State.interrupt_cycles {s : State} (h : s.inte = true) (target : Word) :
    (s.interrupt target).cycles = s.cycles + s.params.intCost := by
  rw [State.interrupt_accepted h]

/-- Beside clearing INTE, an accepted request changes what its push of PC changes
(60_exceptions R307). -/
theorem State.outside_interrupt {s : State} (hs : s.Inv) (h : s.inte = true) (target : Word) :
    (s.setInte false).Outside (s.interrupt target) [] [s.sp - 2, s.sp - 2 + 1] := by
  rw [State.interrupt_accepted h]
  exact State.outside_push (s := s.setInte false) hs s.pc

theorem State.WordAt.readWord_eq {t : State} {a w : Word} (h : t.WordAt a w) :
    t.readWord a = w := by
  obtain ⟨hlow, hhigh⟩ := h
  rw [State.readWord, hlow, hhigh, wordOf_hi_lo]

/-- Run right after an accepted request, RET pops the PC that the request pushed
(60_exceptions R312). -/
theorem State.popPc_interrupt {s : State} (hs : s.Inv) (h : s.inte = true) (target : Word) :
    (s.interrupt target).popPc.pc = s.pc ∧ (s.interrupt target).popPc.sp = s.sp := by
  rw [State.popPc_pc, State.popPc_sp, State.interrupt_sp h]
  exact ⟨(State.interrupt_wordAt hs h target).readWord_eq, BitVec.sub_add_cancel _ _⟩

/-! ### The statements -/

/-- Settles O15: the fetch gives an undocumented instruction exactly at the 12 bytes, and all the others
complete. -/
theorem stepFailsExactlyAtUndocumentedBytes :
    Obligations.StepFailsExactlyAtUndocumentedBytes := by
  intro s hrun
  rw [step_running hrun, ← s.fetchInstr_undocumented_iff]
  refine ⟨fun hfault hundoc => ?_, fun hcompletes => ?_⟩
  · obtain ⟨_, hexec⟩ := hundoc.exec_eq s
    rw [hexec, undocumented_fault hfault, s.fetchInstr_opcode]
    rfl
  · by_cases hundoc : s.fetchInstr.Undocumented
    · obtain ⟨t, hexec⟩ := hundoc.exec_eq s
      have hdup := hcompletes.resolve_right (not_not_intro hundoc)
      exact ⟨t, hexec.trans (undocumented_duplicate hdup _ _)⟩
    · exact exec_completes hundoc s

/-- Settles O57: an accepted request clears INTE, pushes PC and jumps. -/
theorem interruptRequest : Obligations.InterruptRequest := by
  intro s target
  refine ⟨fun hs hinte => ?_, fun hinte => State.interrupt_ignored hinte target⟩
  obtain ⟨hregs, hmem, ⟨hhalted, -, hparams⟩, hdevice⟩ := State.outside_interrupt hs hinte target
  exact ⟨s.interrupt_inte target, State.interrupt_pc hinte target, State.interrupt_sp hinte target,
    State.interrupt_wordAt hs hinte target, State.interrupt_cycles hinte target, hregs, hmem,
    s.interrupt_flags target, hhalted, hparams, hdevice⟩

/-- Settles O58: the first request leaves INTE at 0, and RET pops what it pushed. -/
theorem secondInterruptIsIgnoredAndRetResumes :
    Obligations.SecondInterruptIsIgnoredAndRetResumes := by
  intro s target other hs hinte
  obtain ⟨hpc, hsp⟩ := State.popPc_interrupt hs hinte target
  obtain ⟨hregs, -⟩ := State.outside_interrupt hs hinte target
  exact ⟨State.interrupt_ignored (s.interrupt_inte target) other,
    _, execute_next .ret _ State.popPc, hpc, hsp, s.interrupt_inte target,
    s.interrupt_flags target, hregs⟩

/-- Settles O56: each kind stops with its own byte. -/
theorem undocumentedBytesFail : Obligations.UndocumentedBytesFail := by
  intro s hfault
  exact ⟨fun n => undocumented_fault hfault (.undocNop n) _,
    fun addr => undocumented_fault hfault (.undocJmp addr) _, undocumented_fault hfault .undocRet _,
    fun n addr => undocumented_fault hfault (.undocCall n addr) _⟩

end Sys2Proof.Machine
end

section
/-! Proofs of the statements of 70_reset_and_hazards: which instruction a step runs, what it adds to
CYCLES and that CYCLES decides nothing, Reset, and the invariant along every schedule of the host. -/

namespace Sys2Proof

/-- The condition of a conditional CALL or RETURN; every other instruction has none
(43_branch R234, R236, R241). -/
def Instr.condition : Instr → Option Cond
  | .cnz _ | .rnz => some .nz
  | .cz _ | .rz => some .z
  | .cnc _ | .rnc => some .nc
  | .cc _ | .rc => some .c
  | .cpo _ | .rpo => some .po
  | .cpe _ | .rpe => some .pe
  | .cp _ | .rp => some .p
  | .cm _ | .rm => some .m
  | _ => none

end Sys2Proof

namespace Sys2Proof.Machine

/-! ### The opcode bytes of the conditional CALLs and RETURNs -/

/-- The predicate listed for the byte of a conditional CALL or RETURN is the instruction's condition
(30_encoding R97). -/
theorem takenByOpcode_of_condition {i : Instr} {k : Cond} (h : i.condition = some k) (f : Flags) :
    takenByOpcode i.opcode f = f.cond k := by
  cases i <;> cases h <;>
    simp [takenByOpcode, conditionalCalls, conditionalReturns, Flags.cond, Instr.opcode, Cond.code]

theorem conditionalCalls_decode {e : Byte × (Word → Instr) × (Flags → Bool)}
    (listed : e ∈ conditionalCalls) :
    decodeOpcode e.1 = .f3 e.2.1 ∧ ∀ addr, (e.2.1 addr).condition ≠ none := by
  simp only [conditionalCalls, List.mem_cons, List.not_mem_nil, or_false] at listed
  rcases listed with rfl | rfl | rfl | rfl | rfl | rfl | rfl | rfl <;> exact ⟨rfl, fun _ => nofun⟩

theorem conditionalReturns_decode {e : Byte × Instr × (Flags → Bool)}
    (listed : e ∈ conditionalReturns) : decodeOpcode e.1 = .f1 e.2.1 ∧ e.2.1.condition ≠ none := by
  simp only [conditionalReturns, List.mem_cons, List.not_mem_nil, or_false] at listed
  rcases listed with rfl | rfl | rfl | rfl | rfl | rfl | rfl | rfl <;> exact ⟨rfl, nofun⟩

/-- The condition listed for the byte at PC is that of the instruction fetched
(70_reset_and_hazards R349). -/
theorem State.takenByOpcode_opcodeAtPc (s : State) (f : Flags) :
    takenByOpcode s.opcodeAtPc f = s.fetchInstr.condition.any f.cond := by
  rw [← s.fetchInstr_opcode]
  cases hcondition : s.fetchInstr.condition with
  | some k => exact takenByOpcode_of_condition hcondition f
  | none =>
    rw [s.fetchInstr_opcode, Option.any_none, Bool.eq_false_iff]
    intro htaken
    simp only [takenByOpcode, Bool.or_eq_true, List.any_eq_true, Bool.and_eq_true, beq_iff_eq]
      at htaken
    obtain ⟨e, listed, hop, -⟩ | ⟨e, listed, hop, -⟩ := htaken
    · obtain ⟨hrow, hsome⟩ := conditionalCalls_decode listed
      rw [State.fetchInstr_f3 (hop ▸ hrow)] at hcondition
      exact hsome _ hcondition
    · obtain ⟨hrow, hsome⟩ := conditionalReturns_decode listed
      rw [State.fetchInstr_f1 (hop ▸ hrow)] at hcondition
      exact hsome hcondition

/-! ### What every instruction does, but for its cost -/

/-- An operation that neither reads nor writes CYCLES, and keeps the parameters
(70_reset_and_hazards R353, assumption log 11). -/
structure CyclesForeign (f : State → State) : Prop where
  setCycles : ∀ s n, f (s.setCycles n) = (f s).setCycles n
  params : ∀ s, (f s).params = s.params

theorem CyclesForeign.cycles {f : State → State} (h : CyclesForeign f) (s : State) :
    (f s).cycles = s.cycles :=
  congrArg (·.cycles) (h.setCycles s s.cycles)

/-- The operation of a conditional CALL or RETURN that is not taken. -/
theorem cyclesForeign_id : CyclesForeign id := ⟨fun _ _ => rfl, fun _ => rfl⟩

theorem State.setRp_setCycles (s : State) (n : Nat) (p : Pair) (w : Word) :
    (s.setCycles n).setRp p w = (s.setRp p w).setCycles n := by
  cases p <;> rfl

theorem State.jumpIf_setCycles (s : State) (n : Nat) (k : Cond) (addr : Word) :
    (s.setCycles n).jumpIf k addr = (s.jumpIf k addr).setCycles n := by
  rw [State.jumpIf_eq, State.jumpIf_eq]; rfl

theorem State.devIn_setCycles (s : State) (n : Nat) (p : Byte) :
    (s.setCycles n).devIn p = ((s.devIn p).1, (s.devIn p).2.setCycles n) := by
  unfold State.devIn; rw [State.setCycles_devInputs]; split <;> rfl

/-- The three ways an instruction is carried out, each by an operation to which CYCLES is foreign
(43_branch R241, 30_encoding R105, 70_reset_and_hazards R340). -/
inductive ExecForm (i : Instr) : Prop where
  | always (f : State → State) (hf : CyclesForeign f) (hcondition : i.condition = none)
      (hexec : ∀ s, exec i s = execute i s f)
  | conditional (k : Cond) (f : State → State) (hf : CyclesForeign f)
      (hcondition : i.condition = some k) (hexec : ∀ s, exec i s = executeIf i k s f)
  | undocumented (f : State → State) (hf : CyclesForeign f) (hcondition : i.condition = none)
      (hexec : ∀ s, exec i s = undocumented i s (execute i s f))

/-- The one case split over the instructions: conditional CALLs and RETURNs, undocumented bytes, the
operations that go through a pair selector, a condition or the device, and the rest. -/
theorem exec_form (i : Instr) : ExecForm i := by
  cases i
  case cnz | cz | cnc | cc | cpo | cpe | cp | cm | rnz | rz | rnc | rc | rpo | rpe | rp | rm =>
    refine .conditional _ _ ?_ rfl fun _ => by unfold exec; rfl
    exact ⟨fun _ _ => rfl, fun _ => rfl⟩
  case undocNop | undocJmp | undocRet | undocCall =>
    refine .undocumented _ ?_ rfl fun _ => by unfold exec; rfl
    exact ⟨fun _ _ => rfl, fun _ => rfl⟩
  case lxi p _ | inx p | dcx p =>
    refine .always _ ?_ rfl fun _ => by unfold exec; rfl
    exact ⟨fun s n => s.setRp_setCycles n p _, fun s => s.setRp_params p _⟩
  case jnz addr | jz addr | jnc addr | jc addr | jpo addr | jpe addr | jp addr | jm addr =>
    refine .always _ ?_ rfl fun _ => by unfold exec; rfl
    exact ⟨fun s n => s.jumpIf_setCycles n _ addr, fun s => s.jumpIf_params _ addr⟩
  case inp p =>
    refine .always _ ?_ rfl fun _ => by unfold exec; rfl
    exact ⟨fun s n => by rw [State.devIn_setCycles]; rfl, fun s => s.devIn_params p⟩
  all_goals
    refine .always _ ?_ rfl fun _ => by unfold exec; rfl
    exact ⟨fun _ _ => rfl, fun _ => rfl⟩

/-- What an instruction that completes does: one operation to which CYCLES is foreign, with PC past the
instruction, and then the cost, which alone asks whether a condition held (43_branch R241). -/
theorem exec_next_form {i : Instr} {s t : State} (h : exec i s = .next t) :
    ∃ f, CyclesForeign f ∧ t = (f (s.past i)).retire i
      (if i.condition.any s.flags.cond then s.params.takenExtra else 0) := by
  cases exec_form i with
  | always f hf hcondition hexec =>
    rw [hexec, execute_next] at h
    cases h
    exact ⟨f, hf, by simp [hcondition]⟩
  | conditional k f hf hcondition hexec =>
    rw [hexec] at h
    refine executeIf_elim h (fun htaken ht => ?_) (fun hnot ht => ?_)
    · exact ⟨f, hf, by simp [← ht, hcondition, htaken]⟩
    · exact ⟨id, cyclesForeign_id, by simp [← ht, hcondition, hnot]⟩
  | undocumented f hf hcondition hexec =>
    rw [hexec] at h
    obtain ⟨-, h⟩ := undocumented_next h
    rw [execute_next] at h
    cases h
    exact ⟨f, hf, by simp [hcondition]⟩

theorem exec_params {i : Instr} {s t : State} (h : exec i s = .next t) : t.params = s.params := by
  obtain ⟨f, hf, rfl⟩ := exec_next_form h
  exact hf.params (s.past i)

/-- CYC of the opcode byte is added, and `TAKEN_EXTRA` where a condition held (43_branch R241,
70_reset_and_hazards R349). -/
theorem exec_cycles {i : Instr} {s t : State} (h : exec i s = .next t) :
    t.cycles = s.cycles + (s.params.cycOf i.opcode
      + if i.condition.any s.flags.cond then s.params.takenExtra else 0) := by
  obtain ⟨f, hf, rfl⟩ := exec_next_form h
  simp only [State.retire_cycles, hf.cycles, hf.params, State.past_cycles, State.past_params]

theorem step_params {s t : State} (h : step s = .next t) : t.params = s.params := by
  obtain rfl | ⟨-, hexec⟩ := step_next_cases h
  · rfl
  · exact exec_params hexec

/-! ### CYCLES decides nothing -/

/-- The state with `n` more CYCLES. -/
def State.addCycles (s : State) (n : Nat) : State := s.setCycles (s.cycles + n)

/-- The result with `n` more CYCLES in the next state, or in the state at the error. -/
def Result.addCycles (n : Nat) : Result → Result
  | .next t => .next (t.addCycles n)
  | .fault (.unimplementedInstruction op e) => .fault (.unimplementedInstruction op (e.addCycles n))
  | .fault .outOfRange => .fault .outOfRange
  | .refused r => .refused r

/-- The end of a step adds the same number to a larger CYCLES. -/
theorem CyclesForeign.retire_addCycles {f : State → State} (hf : CyclesForeign f) (i : Instr)
    (s : State) (n extra : Nat) :
    (f ((s.addCycles n).past i)).retire i extra = ((f (s.past i)).retire i extra).addCycles n := by
  have hpast : (s.addCycles n).past i = (s.past i).setCycles (s.cycles + n) := rfl
  have hcycles : (f (s.past i)).cycles = s.cycles := hf.cycles (s.past i)
  rw [hpast, hf.setCycles]
  simp only [State.retire, State.addCycles, State.setCycles, hcycles, Nat.add_right_comm]

theorem execute_addCycles {f : State → State} (hf : CyclesForeign f) (i : Instr) (s : State)
    (n : Nat) : execute i (s.addCycles n) f = Result.addCycles n (execute i s f) :=
  congrArg Host.Outcome.next (hf.retire_addCycles i s n 0)

/-- Executing an instruction commutes with adding to CYCLES. -/
theorem exec_addCycles (i : Instr) (s : State) (n : Nat) :
    exec i (s.addCycles n) = Result.addCycles n (exec i s) := by
  cases exec_form i with
  | always f hf _ hexec =>
    rw [hexec, hexec, execute_addCycles hf]
  | conditional k f hf _ hexec =>
    rw [hexec, hexec]
    obtain ⟨hcond, hnext⟩ | ⟨hcond, hnext⟩ := executeIf_cases i k s f <;> rw [hnext]
    · rw [executeIf_taken (s := s.addCycles n) hcond]
      exact congrArg Host.Outcome.next (hf.retire_addCycles i s n s.params.takenExtra)
    · rw [executeIf_not_taken (s := s.addCycles n) hcond]
      exact execute_addCycles cyclesForeign_id i s n
  | undocumented f hf _ hexec =>
    rw [hexec, hexec]
    cases hundoc : s.params.undoc with
    | fault => rw [undocumented_fault hundoc, undocumented_fault (s := s.addCycles n) hundoc]; rfl
    | duplicate =>
      rw [undocumented_duplicate hundoc, undocumented_duplicate (s := s.addCycles n) hundoc]
      exact execute_addCycles hf i s n

/-- A step commutes with adding to CYCLES (70_reset_and_hazards R353). -/
theorem step_addCycles (s : State) (n : Nat) :
    step (s.addCycles n) = Result.addCycles n (step s) := by
  cases hrun : s.halted with
  | true => rw [step_halted hrun, step_halted (s := s.addCycles n) hrun]; rfl
  | false =>
    rw [step_running hrun, step_running (s := s.addCycles n) hrun]
    exact exec_addCycles s.fetchInstr s n

/-! ### Placed bytes -/

/-- Three bytes placed anywhere, also across the top of memory, are read back in order. -/
theorem State.readByte_placeBytes_three {s : State} (hs : s.Inv) (a : Word) (x y z : Byte) :
    [(s.placeBytes a [x, y, z]).readByte a, (s.placeBytes a [x, y, z]).readByte (a + 1),
      (s.placeBytes a [x, y, z]).readByte (a + 1 + 1)] = [x, y, z] := by
  have hx : Memory.wf (s.writeByte a x).mem = true := State.wf_writeByte hs a x
  have hy : Memory.wf ((s.writeByte a x).writeByte (a + 1) y).mem = true := State.wf_writeByte hx _ y
  have hne : a ≠ a + 1 + 1 := by bv_omega
  simp only [State.placeBytes, State.readByte_writeByte hy, State.readByte_writeByte hx,
    State.readByte_writeByte hs, Word.ne_succ, hne, if_false, if_true]

/-- The step after a table word is placed fetches what the word decodes to (assumption logs 14
and 15). -/
theorem State.fetchInstr_withFetchWord {s : State} {nbits w : Nat} {i : Instr} (hs : s.Inv)
    (h : decodeTableWord nbits w = some i) : (s.withFetchWord nbits w).fetchInstr = i := by
  obtain ⟨rest, hdecode⟩ : ∃ rest, decode (tableBytes nbits w) = .ok (i, rest) := by
    unfold decodeTableWord at h
    split at h <;> cases h
    exact ⟨_, ‹_›⟩
  refine State.fetchInstr_of_decode (r := rest) ?_
  rw [← hdecode]
  exact congrArg decode (State.readByte_placeBytes_three hs s.pc _ _ _)

/-! ### Schedules of the host -/

/-- One host operation keeps the canonical form and the parameters: what it stores, it stores with
MemWrite (70_reset_and_hazards R342). -/
theorem State.hostDo_keeps {s t : State} {op : HostOp} (hs : s.Inv) (h : s.hostDo op = .next t) :
    t.Inv ∧ t.params = s.params := by
  cases op with
  | step => exact ⟨stepKeepsMemoryCanonical s t hs h, step_params h⟩
  | load bytes offset =>
    obtain ⟨hfits, rfl⟩ := State.hostLoad_next.1 h
    exact ⟨Memory.wf_load hs hfits, rfl⟩
  | interrupt target =>
    cases h
    unfold State.interrupt
    split
    · exact ⟨State.wf_push (s := s.setInte false) hs s.pc, rfl⟩
    · exact ⟨hs, rfl⟩
  | writeByte a v => cases h; exact ⟨State.wf_writeByte hs a v, rfl⟩
  | writeWord a w => cases h; exact ⟨State.wf_writeWord hs a w, rfl⟩
  | _ => cases h; exact ⟨hs, rfl⟩

theorem State.drive_cons_next {s t : State} {op : HostOp} {ops : List HostOp} :
    s.drive (op :: ops) = .next t ↔ ∃ u, s.hostDo op = .next u ∧ u.drive ops = .next t := by
  cases hdo : s.hostDo op <;> simp [State.drive, hdo]

/-! ### The statements -/

/-- Settles O7: the fetch reads the three bytes from PC. -/
theorem stepRunsTheDecodedInstruction : Obligations.StepRunsTheDecodedInstruction := by
  refine ⟨fun s i rest hrun hdecode _ => ?_, fun s hhalted => ⟨step_halted hhalted, Nat.sub_self _⟩⟩
  rw [step_running hrun, State.fetchInstr_of_decode (r := rest) (by rwa [BitVec.add_assoc])]

/-- Settles O8: the bytes placed are read back, so the fetch reads the instruction of the word. -/
theorem stepRunsThePlacedWord : Obligations.StepRunsThePlacedWord := by
  intro s nbits w i hs h
  rw [step_running rfl, State.fetchInstr_withFetchWord hs h]

/-- Settles O10: by induction on the schedule, each operation keeps both. -/
theorem hostScheduleKeepsMemoryCanonical : Obligations.HostScheduleKeepsMemoryCanonical := by
  intro ops
  induction ops with
  | nil => intro s t hs h; cases h; exact ⟨hs, rfl⟩
  | cons op ops ih =>
    intro s t hs h
    obtain ⟨u, hdo, hdrive⟩ := State.drive_cons_next.1 h
    obtain ⟨hinv, hparams⟩ := State.hostDo_keeps hs hdo
    obtain ⟨hinv', hparams'⟩ := ih u t hinv hdrive
    exact ⟨hinv', hparams'.trans hparams⟩

/-- Settles O11: neither Reset's values nor the parameters are memory. -/
theorem resetMemoryIsCanonical : Obligations.ResetMemoryIsCanonical :=
  ⟨rfl, fun _ _ _ hm => hm⟩

/-- Settles O17: by the cost of the instruction fetched, whose condition is the one listed for the
byte at PC. -/
theorem stepCountsCycles : Obligations.StepCountsCycles := by
  intro s t hrun h
  rw [step_running hrun] at h
  have hcycles := exec_cycles h
  rw [s.fetchInstr_opcode, ← s.takenByOpcode_opcodeAtPc] at hcycles
  exact ⟨hcycles, by rw [reportedCycles, hcycles, Nat.add_sub_cancel_left]⟩

/-- Settles O18: a step commutes with adding to CYCLES, whether it completes or fails. -/
theorem cyclesNeverFeedBack : Obligations.CyclesNeverFeedBack := by
  intro s n
  exact ⟨fun t h => (step_addCycles s n).trans (by rw [h]; rfl),
    fun op e h => (step_addCycles s n).trans (by rw [h]; rfl)⟩

/-- Settles O60: Reset writes these fields and no other. -/
theorem resetLeavesTheStatedValues : Obligations.ResetLeavesTheStatedValues :=
  ⟨fun _ _ => ⟨rfl, rfl, rfl, rfl, fun _ _ => rfl, rfl, ⟨rfl, rfl, rfl⟩, rfl, rfl, rfl⟩,
    rfl, rfl, rfl, rfl⟩

end Sys2Proof.Machine
end
